-- ==== Sys2Proof/Word.lean ====
section
/-! DEFINITION. The word types of IGE-RNC (00_scope.md R10). -/

namespace Sys2Proof

/-- A byte of BUF (R64). -/
abbrev Byte := BitVec 8

/-- A command word (R90). -/
abbrev Word32 := BitVec 32

/-- An operand register, a generator word, or a binary64 pattern (R10, R12, R21). -/
abbrev Word64 := BitVec 64

end Sys2Proof
end

