-- ==== Sys2Proof/Config.lean ====
section
/-! DEFINITION. The parameters of IGE-RNC with the values the spec gives them (00_scope.md R6 to R9, 44_simplex.md
R263 to R267, 41_rangemap.md R165), and the free values: what the spec leaves unspecified, as constants without a body. -/

namespace Sys2Proof

/-- Parameters of the word generator that the source describes without numbers, with the defaults of R7. -/
structure GeneratorParams where
  upperMask : Word64 := 0xFFFFFFFF80000000
  lowerMask : Word64 := 0x000000007FFFFFFF
  mag0      : Word64 := 0x0000000000000000
  mag1      : Word64 := 0xB5026F5AA96619E9
  temper1   : Word64 := 0x5555555555555555
  temper2   : Word64 := 0x71D67FFFEDA60000
  temper3   : Word64 := 0xFFF7EEE000000000
  initMul   : Word64 := 6364136223846793005
  arrSeed   : Word64 := 19650218
  arrMul1   : Word64 := 3935559000370003845
  arrMul2   : Word64 := 2862933555777941757
  arrTop    : Word64 := 0x8000000000000000
deriving DecidableEq, Repr

/-- R266, the reachable entries of the corner-ranking table that the spec takes as the default, each with its mask. -/
def defaultRankRows : List (Nat × List Nat) :=
  [( 0, [0, 1, 2, 3]), ( 1, [0, 1, 3, 2]), ( 3, [0, 2, 3, 1]), ( 7, [1, 2, 3, 0]),
   ( 8, [0, 2, 1, 3]), (10, [0, 3, 1, 2]), (11, [0, 3, 2, 1]), (15, [1, 3, 2, 0]),
   (24, [1, 2, 0, 3]), (26, [1, 3, 0, 2]), (30, [2, 3, 0, 1]), (31, [2, 3, 1, 0]),
   (32, [1, 0, 2, 3]), (33, [1, 0, 3, 2]), (37, [2, 0, 3, 1]), (39, [2, 1, 3, 0]),
   (48, [2, 0, 1, 3]), (52, [3, 0, 1, 2]), (53, [3, 0, 2, 1]), (55, [3, 1, 2, 0]),
   (56, [2, 1, 0, 3]), (60, [3, 1, 0, 2]), (62, [3, 2, 0, 1]), (63, [3, 2, 1, 0])]

/-- Parameters of the simplex evaluator that the source describes without giving them in full (R8), with the defaults of R263 to
R267: the constants as binary64 patterns, the gradients of three and of four dimensions in order, and the 64 entries of the
corner-ranking table, in which an entry that no ordering reaches is `(0,0,0,0)`. -/
structure SimplexParams where
  f2 : Word64 := 0x3FD76CF5D0B09954
  g2 : Word64 := 0x3FCB0CB174DF99C8
  f3 : Word64 := 0x3FD5555555555555
  g3 : Word64 := 0x3FC5555555555555
  f4 : Word64 := 0x3FD3C6EF372FE950
  g4 : Word64 := 0x3FC1B06D1D200913
  twoG2   : Word64 := 0x3FDB0CB174DF99C8
  twoG3   : Word64 := 0x3FD5555555555555
  threeG3 : Word64 := 0x3FE0000000000000
  twoG4   : Word64 := 0x3FD1B06D1D200913
  threeG4 : Word64 := 0x3FDA88A3ABB00D9C
  fourG4  : Word64 := 0x3FE1B06D1D200913
  k2 : Word64 := 0x4041800000000000
  k3 : Word64 := 0x4030000000000000
  k4 : Word64 := 0x402B000000000000
  grad3 : List (List Int) :=
    [[ 1,  1,  0], [-1,  1,  0], [ 1, -1,  0], [-1, -1,  0],
     [ 1,  0,  1], [-1,  0,  1], [ 1,  0, -1], [-1,  0, -1],
     [ 0,  1,  1], [ 0, -1,  1], [ 0,  1, -1], [ 0, -1, -1]]
  grad4 : List (List Int) :=
    [[ 0,  1,  1,  1], [ 0,  1,  1, -1], [ 0,  1, -1,  1], [ 0,  1, -1, -1],
     [ 0, -1,  1,  1], [ 0, -1,  1, -1], [ 0, -1, -1,  1], [ 0, -1, -1, -1],
     [ 1,  0,  1,  1], [ 1,  0,  1, -1], [ 1,  0, -1,  1], [ 1,  0, -1, -1],
     [-1,  0,  1,  1], [-1,  0,  1, -1], [-1,  0, -1,  1], [-1,  0, -1, -1],
     [ 1,  1,  0,  1], [ 1,  1,  0, -1], [ 1, -1,  0,  1], [ 1, -1,  0, -1],
     [-1,  1,  0,  1], [-1,  1,  0, -1], [-1, -1,  0,  1], [-1, -1,  0, -1],
     [ 1,  1,  1,  0], [ 1,  1, -1,  0], [ 1, -1,  1,  0], [ 1, -1, -1,  0],
     [-1,  1,  1,  0], [-1,  1, -1,  0], [-1, -1,  1,  0], [-1, -1, -1,  0]]
  rankTable : List (List Nat) := (List.range 64).map fun c => (defaultRankRows.lookup c).getD [0, 0, 0, 0]
deriving DecidableEq, Repr

namespace Config

/-- R7. DESIGN CHOICE (log 1): the open parameters stand at their defaults. -/
def gen : GeneratorParams := {}

/-- R8, R263 to R267. DESIGN CHOICE (log 1): the open parameters stand at their defaults. -/
def simplex : SimplexParams := {}

/-- R266 `RANK[c]`. -/
def rank (c : Nat) : List Nat := simplex.rankTable.getD c []

/-- R9 `BUF_BYTES`. -/
def bufBytes : Nat := 4096

/-- R9 `P_FMAX`. -/
def pFreqMax : Nat := 4096

/-- R6 `ROUNDS_DEFAULT`: the round count of an `ISPRIME` that is written without one (R101). -/
def roundsDefault : Nat := 5

/-- R6 `SHUFFLE_PASSES`. -/
def shufflePasses : Nat := 5

/-- R6 `S_FREQ`: the fixed simplex lattice resolution, and what the register reads as (R33). -/
def sFreq : Nat := 256

/-- R6 `PRIME_LIMIT`. -/
def primeLimit : Nat := 65535

/-- R9 `NPRIMES`. -/
def nPrimes : Nat := 6542

/-- R165 `MINC`: the binary64 nearest to `1/(2^53 − 1)`. -/
def mInc : Word64 := 0x3CA0000000000001

/-- R60 `BASE`, the platform's: where the register space lies. No rule reads it. -/
opaque base : Nat

/-- R24, R340: `MT` after the `k`-th reset. Unspecified, so a free value (log 2). -/
opaque mtReset (k : Nat) : Vector Word64 312

/-- R30, R340: `VAL` after the `k`-th reset. Unspecified, so a free value (log 2). -/
opaque valReset (k : Nat) : Vector Word64 4096

/-- R30, R340: `PERM[0..3]` after the `k`-th reset. Unspecified, so a free value (log 2). -/
opaque permReset (k : Nat) : Vector (Vector Nat 8192) 4

/-- R34, R340: `SP` after the `k`-th reset. Unspecified, so a free value (log 2). -/
opaque spReset (k : Nat) : Vector Byte 512

/-- R34, R340: `SM12` after the `k`-th reset. Unspecified, so a free value (log 2). -/
opaque sm12Reset (k : Nat) : Vector (Fin 12) 512

/-- R34, R340: `SM32` after the `k`-th reset. Unspecified, so a free value (log 2). -/
opaque sm32Reset (k : Nat) : Vector (Fin 32) 512

/-- R37, U3: what a byte of BUF that nothing has written since the `k`-th reset holds: arbitrary and stable, so a
free value of the reset's number and the address (log 3). -/
opaque bufByte (k addr : Nat) : Byte

/-- R12 says that a result is a NaN and not which pattern: sign and payload of a NaN result are a free value (log 8). -/
opaque nanBits : BitVec 52

end Config

end Sys2Proof
end

