-- ==== Sys2Proof/Machine/Float64.lean ====
section
/-! DEFINITION. IEEE 754 binary64 as the spec uses it (00_scope.md R12): one rounding mode, no flags. Every finite
binary64 number is a whole multiple of 2^-1074, so a finite value is held as that multiple and every operation is exact
integer arithmetic followed by one rounding. -/

namespace Sys2Proof.Machine

/-- A binary64 value. `fin neg mag` is `(-1)^neg × mag × 2^-1074`, with the sign of a zero kept (R12). -/
inductive F64 where
  | nan
  | inf (neg : Bool)
  | fin (neg : Bool) (mag : Nat)
deriving DecidableEq, Repr

/-- `2^1074`, the unit in which magnitudes are counted. -/
def fUnit : Nat := 2 ^ 1074

/-- The first magnitude that is too large for binary64, `2^1024`. -/
def fOverflow : Nat := 2 ^ 2098

/-- The value of a pattern: sign bit 63, exponent bits 62..52, fraction bits 51..0 (R12). -/
def fOfBits (b : Word64) : F64 :=
  let neg := b.getLsbD 63
  let ex := (b.extractLsb' 52 11).toNat
  let fr := (b.extractLsb' 0 52).toNat
  if ex = 2047 then
    if fr = 0 then .inf neg else .nan
  else if ex = 0 then .fin neg fr
  else .fin neg ((2 ^ 52 + fr) * 2 ^ (ex - 1))

/-- Exponent and fraction bits of a representable magnitude, as one number (R12). -/
def fMagBits (mag : Nat) : Nat :=
  if mag < 2 ^ 52 then mag
  else (mag.log2 - 52) * 2 ^ 52 + mag / 2 ^ (mag.log2 - 52)

/-- The sign bit in its place. -/
def fSignBit (neg : Bool) : Word64 := if neg then 0x8000000000000000 else 0

/-- The pattern of a value (R12). Sign and payload of a NaN are the free value of log 8. -/
def fToBits : F64 → Word64
  | .nan => Config.nanBits.extractLsb' 51 1 ++ (0xFFF : BitVec 12) ++ Config.nanBits.extractLsb' 0 51
  | .inf neg => fSignBit neg ||| 0x7FF0000000000000
  | .fin neg mag => fSignBit neg ||| BitVec.ofNat 64 (fMagBits mag)

/-- `rnd` (R12): the binary64 value nearest to `± (num / den) × 2^-1074`, ties to the even last fraction bit, overflow to
infinity. `den` is not 0. -/
def fRound (neg : Bool) (num den : Nat) : F64 :=
  let e := (num / den).log2 - 52
  let quantum := den * 2 ^ e
  let m := num / quantum
  let rem := num % quantum
  let m' := if quantum < 2 * rem ∨ (2 * rem = quantum ∧ m % 2 = 1) then m + 1 else m
  if fOverflow ≤ m' * 2 ^ e then .inf neg else .fin neg (m' * 2 ^ e)

/-- A signed magnitude as an integer, in units of 2^-1074. -/
def fSigned (neg : Bool) (mag : Nat) : Int := if neg then -(mag : Int) else (mag : Int)

/-- `f64(n)` (R12). -/
def fOfInt (n : Int) : F64 := fRound (n < 0) (fUnit * n.natAbs) 1

/-- +0.0. -/
def fZero : F64 := .fin false 0

/-- Change of sign, exact. -/
def fNeg : F64 → F64
  | .nan => .nan
  | .inf neg => .inf (!neg)
  | .fin neg mag => .fin (!neg) mag

/-- `a ⊕ b` (R12). An exact sum of 0 is +0 unless both operands are negative. -/
def fAdd : F64 → F64 → F64
  | .nan, _ => .nan
  | _, .nan => .nan
  | .inf a, .inf b => if a = b then .inf a else .nan
  | .inf a, .fin _ _ => .inf a
  | .fin _ _, .inf b => .inf b
  | .fin a m, .fin b n =>
    let z := fSigned a m + fSigned b n
    if z = 0 then .fin (a && b) 0 else fRound (z < 0) z.natAbs 1

/-- `a ⊖ b` (R12). -/
def fSub (a b : F64) : F64 := fAdd a (fNeg b)

/-- `a ⊗ b` (R12). -/
def fMul : F64 → F64 → F64
  | .nan, _ => .nan
  | _, .nan => .nan
  | .inf a, .inf b => .inf (a != b)
  | .inf a, .fin b n => if n = 0 then .nan else .inf (a != b)
  | .fin a m, .inf b => if m = 0 then .nan else .inf (a != b)
  | .fin a m, .fin b n => fRound (a != b) (m * n) fUnit

/-- `a ⊘ b` (R12). -/
def fDiv : F64 → F64 → F64
  | .nan, _ => .nan
  | _, .nan => .nan
  | .inf _, .inf _ => .nan
  | .inf a, .fin b _ => .inf (a != b)
  | .fin a _, .inf b => .fin (a != b) 0
  | .fin a m, .fin b n =>
    if n = 0 then (if m = 0 then .nan else .inf (a != b)) else fRound (a != b) (fUnit * m) n

/-- `finite(v)` (R12). -/
def fFinite : F64 → Bool
  | .fin _ _ => true
  | _ => false

/-- Where a value lies on the extended line, in units of 2^-1074; a NaN lies nowhere. -/
def fKey : F64 → Option Int
  | .nan => none
  | .inf neg => some (fSigned neg fOverflow)
  | .fin neg mag => some (fSigned neg mag)

/-- `a < b` (R12): false when either is a NaN. -/
def fLt (a b : F64) : Bool :=
  match fKey a, fKey b with
  | some x, some y => decide (x < y)
  | _, _ => false

/-- `a ≤ b` (R12): false when either is a NaN. -/
def fLe (a b : F64) : Bool :=
  match fKey a, fKey b with
  | some x, some y => decide (x ≤ y)
  | _, _ => false

/-- `ifloor(v)` (R12, R222): `none` where the command raises `ERR_OPERAND`. -/
def ifloor : F64 → Option Int
  | .fin neg mag => some (fSigned neg mag / (fUnit : Int))
  | _ => none

/-- `ffloor(v)` (R12) of a finite value: exact. The floor of a zero keeps its sign (log 9). -/
def ffloor : F64 → F64
  | .fin neg mag => .fin neg (fUnit * (fSigned neg mag / (fUnit : Int)).natAbs)
  | v => v

end Sys2Proof.Machine
end

