-- ==== Sys2Proof/Syntax.lean ====
section
/-! DEFINITION. The commands of IGE-RNC: one constructor for each of the 54 rows of the opcode table (30_encoding.md R95). -/

namespace Sys2Proof

/-- A register number, `r0` to `r15` (R21, R90). -/
abbrev Reg := Fin 16

/-- The axis immediate of format `AI` (R93): X = 0, Y = 1, Z = 2, T = 3. -/
inductive Axis where
  | x | y | z | t
deriving DecidableEq, Repr

/-- The commands of R95, in the table's order. Fields are named as the table names them: `rd` the destination, `ra`
and `rb` the sources, `rounds` the round count of format `DAI`. -/
inductive Instr where
  | nop
  | clrerr
  | seed (ra : Reg)
  | seeda (ra : Reg)
  | save
  | restore
  | nbytes (ra : Reg)
  | nbytesz (ra : Reg)
  | nu64 (rd : Reg)
  | nu32 (rd : Reg)
  | ni64 (rd : Reg)
  | ni32 (rd : Reg)
  | nu64r (rd ra rb : Reg)
  | nu32r (rd ra rb : Reg)
  | ni64r (rd ra rb : Reg)
  | ni32r (rd ra rb : Reg)
  | nu64m (rd ra : Reg)
  | nu32m (rd ra : Reg)
  | ni64m (rd ra : Reg)
  | ni32m (rd ra : Reg)
  | nd (rd : Reg)
  | ndm (rd ra : Reg)
  | ndr (rd ra rb : Reg)
  | ntd (rd : Reg)
  | ntdm (rd ra : Reg)
  | ntdr (rd ra rb : Reg)
  | nh (rd : Reg)
  | nhm (rd ra : Reg)
  | nhr (rd ra rb : Reg)
  | nth (rd : Reg)
  | nthm (rd ra : Reg)
  | nthr (rd ra rb : Reg)
  | witness (rd : Reg)
  | isprime (rd ra : Reg) (rounds : BitVec 12)
  | pseed (ra : Reg)
  | pfreq (ra : Reg)
  | poct (ra : Reg)
  | poff (ra : Reg) (axis : Axis)
  | pscl (ra : Reg) (axis : Axis)
  | pbuild
  | pn1 (rd ra : Reg)
  | pn2 (rd ra : Reg)
  | pn3 (rd ra : Reg)
  | pn4 (rd ra : Reg)
  | sseed (ra : Reg)
  | sfreq (ra : Reg)
  | soct (ra : Reg)
  | soff (ra : Reg) (axis : Axis)
  | sscl (ra : Reg) (axis : Axis)
  | sbuild
  | sn2 (rd ra : Reg)
  | sn3 (rd ra : Reg)
  | sn4 (rd ra : Reg)
  | smip (rd ra : Reg)
deriving DecidableEq, Repr

end Sys2Proof
end

