-- ==== Sys2Proof/WellFormed.lean ====
section
/-! DEFINITION. Which commands an encoding can carry: the operand rule R92 (30_encoding.md). Every other field is within
its range by its type. -/

namespace Sys2Proof

/-- R92 (a): a `q128` pair named by `k` is `r[k], r[k+1]`, so `k` is at most 14. -/
def pairOk (k : Reg) : Bool := k.val ≤ 14

/-- R92 (b): a coordinate group of `n` registers from `ra` ends at `r15` or before. -/
def groupOk (ra : Reg) (n : Nat) : Bool := ra.val + n ≤ 16

/-- R92, R95: the pair fields and the group of each command. -/
def Instr.wellFormed : Instr → Bool
  | .nh rd | .nth rd => pairOk rd
  | .nhm rd ra | .nthm rd ra => pairOk rd && pairOk ra
  | .nhr rd ra rb | .nthr rd ra rb => pairOk rd && pairOk ra && pairOk rb
  | .pn1 _ ra => groupOk ra 1
  | .pn2 _ ra | .sn2 _ ra => groupOk ra 2
  | .pn3 _ ra | .sn3 _ ra => groupOk ra 3
  | .pn4 _ ra | .sn4 _ ra | .smip _ ra => groupOk ra 4
  | .nop | .clrerr | .seed _ | .seeda _ | .save | .restore | .nbytes _ | .nbytesz _
  | .nu64 _ | .nu32 _ | .ni64 _ | .ni32 _
  | .nu64r _ _ _ | .nu32r _ _ _ | .ni64r _ _ _ | .ni32r _ _ _
  | .nu64m _ _ | .nu32m _ _ | .ni64m _ _ | .ni32m _ _
  | .nd _ | .ndm _ _ | .ndr _ _ _ | .ntd _ | .ntdm _ _ | .ntdr _ _ _
  | .witness _ | .isprime _ _ _
  | .pseed _ | .pfreq _ | .poct _ | .poff _ _ | .pscl _ _ | .pbuild
  | .sseed _ | .sfreq _ | .soct _ | .soff _ _ | .sscl _ _ | .sbuild => true

end Sys2Proof
end

