-- ==== Sys2Proof/Decode.lean ====
section
/-! DEFINITION. Decoding of command words (30_encoding.md R90 to R99) and, after it, the encoder, both written from the
same tables. -/

namespace Sys2Proof

/-- The five fields of a command word (R90). -/
structure Fields where
  op  : BitVec 8
  rd  : BitVec 4
  ra  : BitVec 4
  rb  : BitVec 4
  imm : BitVec 12
deriving DecidableEq, Repr

/-- R90: `op = w[31:24]`, `rd = w[23:20]`, `ra = w[19:16]`, `rb = w[15:12]`, `imm = w[11:0]`. -/
def splitWord (w : Word32) : Fields where
  op  := w.extractLsb' 24 8
  rd  := w.extractLsb' 20 4
  ra  := w.extractLsb' 16 4
  rb  := w.extractLsb' 12 4
  imm := w.extractLsb' 0 12

/-- R90: word = `op ‖ rd ‖ ra ‖ rb ‖ imm`. -/
def joinFields (f : Fields) : Word32 := f.op ++ f.rd ++ f.ra ++ f.rb ++ f.imm

/-- The formats of R91. -/
inductive Format where
  | z | a | d | da | dab | ai | dai
deriving DecidableEq, Repr

/-- R91: every field a format does not use must be 0, and so must the unused high bits of the axis immediate. -/
def Format.unusedZero (fmt : Format) (f : Fields) : Bool :=
  match fmt with
  | .z   => f.rd == 0 && f.ra == 0 && f.rb == 0 && f.imm == 0
  | .a   => f.rd == 0 && f.rb == 0 && f.imm == 0
  | .d   => f.ra == 0 && f.rb == 0 && f.imm == 0
  | .da  => f.rb == 0 && f.imm == 0
  | .dab => f.imm == 0
  | .ai  => f.rd == 0 && f.rb == 0 && f.imm.extractLsb' 2 10 == 0
  | .dai => f.rb == 0

/-- R91: the mask of fixed bits of a format. -/
def Format.mask : Format → Word32
  | .z   => 0xFFFFFFFF
  | .a   => 0xFFF0FFFF
  | .d   => 0xFF0FFFFF
  | .da  => 0xFF00FFFF
  | .dab => 0xFF000FFF
  | .ai  => 0xFFF0FFFC
  | .dai => 0xFF00F000

/-- A register number from its field (R90). -/
def regOfField (v : BitVec 4) : Reg := v.toFin

/-- The field of a register number (R90). -/
def fieldOfReg (k : Reg) : BitVec 4 := BitVec.ofFin k

/-- R93: the axis number is `imm[1:0]`. -/
def axisOfImm (imm : BitVec 12) : Axis :=
  if imm.extractLsb' 0 2 = 0 then .x
  else if imm.extractLsb' 0 2 = 1 then .y
  else if imm.extractLsb' 0 2 = 2 then .z
  else .t

/-- R93: 0 = X, 1 = Y, 2 = Z, 3 = T. -/
def immOfAxis : Axis → BitVec 12
  | .x => 0
  | .y => 1
  | .z => 2
  | .t => 3

/-- The format of each opcode (R95). An opcode that is absent is reserved (R97). -/
def formatOf (op : BitVec 8) : Option Format :=
  match op.toNat with
  | 0x00 => some .z
  | 0x01 => some .z
  | 0x10 => some .a
  | 0x11 => some .a
  | 0x12 => some .z
  | 0x13 => some .z
  | 0x14 => some .a
  | 0x15 => some .a
  | 0x20 => some .d
  | 0x21 => some .d
  | 0x22 => some .d
  | 0x23 => some .d
  | 0x24 => some .dab
  | 0x25 => some .dab
  | 0x26 => some .dab
  | 0x27 => some .dab
  | 0x28 => some .da
  | 0x29 => some .da
  | 0x2A => some .da
  | 0x2B => some .da
  | 0x30 => some .d
  | 0x31 => some .da
  | 0x32 => some .dab
  | 0x34 => some .d
  | 0x35 => some .da
  | 0x36 => some .dab
  | 0x38 => some .d
  | 0x39 => some .da
  | 0x3A => some .dab
  | 0x3C => some .d
  | 0x3D => some .da
  | 0x3E => some .dab
  | 0x40 => some .d
  | 0x41 => some .dai
  | 0x50 => some .a
  | 0x51 => some .a
  | 0x52 => some .a
  | 0x53 => some .ai
  | 0x54 => some .ai
  | 0x55 => some .z
  | 0x58 => some .da
  | 0x59 => some .da
  | 0x5A => some .da
  | 0x5B => some .da
  | 0x60 => some .a
  | 0x61 => some .a
  | 0x62 => some .a
  | 0x63 => some .ai
  | 0x64 => some .ai
  | 0x65 => some .z
  | 0x69 => some .da
  | 0x6A => some .da
  | 0x6B => some .da
  | 0x6C => some .da
  | _ => none

/-- The command of each opcode with the operand fields of its format (R95). -/
def commandOf (f : Fields) : Option Instr :=
  let rd := regOfField f.rd
  let ra := regOfField f.ra
  let rb := regOfField f.rb
  let axis := axisOfImm f.imm
  let rounds := f.imm
  match f.op.toNat with
  | 0x00 => some (.nop)
  | 0x01 => some (.clrerr)
  | 0x10 => some (.seed ra)
  | 0x11 => some (.seeda ra)
  | 0x12 => some (.save)
  | 0x13 => some (.restore)
  | 0x14 => some (.nbytes ra)
  | 0x15 => some (.nbytesz ra)
  | 0x20 => some (.nu64 rd)
  | 0x21 => some (.nu32 rd)
  | 0x22 => some (.ni64 rd)
  | 0x23 => some (.ni32 rd)
  | 0x24 => some (.nu64r rd ra rb)
  | 0x25 => some (.nu32r rd ra rb)
  | 0x26 => some (.ni64r rd ra rb)
  | 0x27 => some (.ni32r rd ra rb)
  | 0x28 => some (.nu64m rd ra)
  | 0x29 => some (.nu32m rd ra)
  | 0x2A => some (.ni64m rd ra)
  | 0x2B => some (.ni32m rd ra)
  | 0x30 => some (.nd rd)
  | 0x31 => some (.ndm rd ra)
  | 0x32 => some (.ndr rd ra rb)
  | 0x34 => some (.ntd rd)
  | 0x35 => some (.ntdm rd ra)
  | 0x36 => some (.ntdr rd ra rb)
  | 0x38 => some (.nh rd)
  | 0x39 => some (.nhm rd ra)
  | 0x3A => some (.nhr rd ra rb)
  | 0x3C => some (.nth rd)
  | 0x3D => some (.nthm rd ra)
  | 0x3E => some (.nthr rd ra rb)
  | 0x40 => some (.witness rd)
  | 0x41 => some (.isprime rd ra rounds)
  | 0x50 => some (.pseed ra)
  | 0x51 => some (.pfreq ra)
  | 0x52 => some (.poct ra)
  | 0x53 => some (.poff ra axis)
  | 0x54 => some (.pscl ra axis)
  | 0x55 => some (.pbuild)
  | 0x58 => some (.pn1 rd ra)
  | 0x59 => some (.pn2 rd ra)
  | 0x5A => some (.pn3 rd ra)
  | 0x5B => some (.pn4 rd ra)
  | 0x60 => some (.sseed ra)
  | 0x61 => some (.sfreq ra)
  | 0x62 => some (.soct ra)
  | 0x63 => some (.soff ra axis)
  | 0x64 => some (.sscl ra axis)
  | 0x65 => some (.sbuild)
  | 0x69 => some (.sn2 rd ra)
  | 0x6A => some (.sn3 rd ra)
  | 0x6B => some (.sn4 rd ra)
  | 0x6C => some (.smip rd ra)
  | _ => none

/-- Why a value written to `CMD` is not a command: the four steps of R96, in their order. Each raises `ERR_ILLEGAL` (R98). -/
inductive DecodeError where
  /-- Step 1: the upper half of the written value is not zero. -/
  | upperHalf
  /-- Step 2: the opcode is not in the table (R97). -/
  | reservedOpcode
  /-- Step 3: a must-be-zero bit is set (R91). -/
  | unusedBits
  /-- Step 4: a pair or a coordinate group reaches past `r15` (R92). -/
  | pastR15
deriving DecidableEq, Repr

/-- R96 steps 2 to 5, on the fields of a word. -/
def decodeFields (f : Fields) : Except DecodeError Instr :=
  match formatOf f.op, commandOf f with
  | some fmt, some i =>
    if fmt.unusedZero f then
      if i.wellFormed then .ok i else .error .pastR15
    else .error .unusedBits
  | _, _ => .error .reservedOpcode

/-- R96 steps 2 to 5: every 32-bit value is one command or is rejected by name. -/
def decode (w : Word32) : Except DecodeError Instr := decodeFields (splitWord w)

/-- R96: the value of a `CMD` write, step 1 first (R63). -/
def decodeCommand (v : Word64) : Except DecodeError Instr :=
  if v.extractLsb' 32 32 = 0 then decode (v.setWidth 32) else .error .upperHalf

/-- The opcode and the operand fields of each command (R95), unused fields 0 (R91). -/
def Instr.fields : Instr → Fields
  | .nop => ⟨0x00, 0, 0, 0, 0⟩
  | .clrerr => ⟨0x01, 0, 0, 0, 0⟩
  | .seed ra => ⟨0x10, 0, fieldOfReg ra, 0, 0⟩
  | .seeda ra => ⟨0x11, 0, fieldOfReg ra, 0, 0⟩
  | .save => ⟨0x12, 0, 0, 0, 0⟩
  | .restore => ⟨0x13, 0, 0, 0, 0⟩
  | .nbytes ra => ⟨0x14, 0, fieldOfReg ra, 0, 0⟩
  | .nbytesz ra => ⟨0x15, 0, fieldOfReg ra, 0, 0⟩
  | .nu64 rd => ⟨0x20, fieldOfReg rd, 0, 0, 0⟩
  | .nu32 rd => ⟨0x21, fieldOfReg rd, 0, 0, 0⟩
  | .ni64 rd => ⟨0x22, fieldOfReg rd, 0, 0, 0⟩
  | .ni32 rd => ⟨0x23, fieldOfReg rd, 0, 0, 0⟩
  | .nu64r rd ra rb => ⟨0x24, fieldOfReg rd, fieldOfReg ra, fieldOfReg rb, 0⟩
  | .nu32r rd ra rb => ⟨0x25, fieldOfReg rd, fieldOfReg ra, fieldOfReg rb, 0⟩
  | .ni64r rd ra rb => ⟨0x26, fieldOfReg rd, fieldOfReg ra, fieldOfReg rb, 0⟩
  | .ni32r rd ra rb => ⟨0x27, fieldOfReg rd, fieldOfReg ra, fieldOfReg rb, 0⟩
  | .nu64m rd ra => ⟨0x28, fieldOfReg rd, fieldOfReg ra, 0, 0⟩
  | .nu32m rd ra => ⟨0x29, fieldOfReg rd, fieldOfReg ra, 0, 0⟩
  | .ni64m rd ra => ⟨0x2A, fieldOfReg rd, fieldOfReg ra, 0, 0⟩
  | .ni32m rd ra => ⟨0x2B, fieldOfReg rd, fieldOfReg ra, 0, 0⟩
  | .nd rd => ⟨0x30, fieldOfReg rd, 0, 0, 0⟩
  | .ndm rd ra => ⟨0x31, fieldOfReg rd, fieldOfReg ra, 0, 0⟩
  | .ndr rd ra rb => ⟨0x32, fieldOfReg rd, fieldOfReg ra, fieldOfReg rb, 0⟩
  | .ntd rd => ⟨0x34, fieldOfReg rd, 0, 0, 0⟩
  | .ntdm rd ra => ⟨0x35, fieldOfReg rd, fieldOfReg ra, 0, 0⟩
  | .ntdr rd ra rb => ⟨0x36, fieldOfReg rd, fieldOfReg ra, fieldOfReg rb, 0⟩
  | .nh rd => ⟨0x38, fieldOfReg rd, 0, 0, 0⟩
  | .nhm rd ra => ⟨0x39, fieldOfReg rd, fieldOfReg ra, 0, 0⟩
  | .nhr rd ra rb => ⟨0x3A, fieldOfReg rd, fieldOfReg ra, fieldOfReg rb, 0⟩
  | .nth rd => ⟨0x3C, fieldOfReg rd, 0, 0, 0⟩
  | .nthm rd ra => ⟨0x3D, fieldOfReg rd, fieldOfReg ra, 0, 0⟩
  | .nthr rd ra rb => ⟨0x3E, fieldOfReg rd, fieldOfReg ra, fieldOfReg rb, 0⟩
  | .witness rd => ⟨0x40, fieldOfReg rd, 0, 0, 0⟩
  | .isprime rd ra rounds => ⟨0x41, fieldOfReg rd, fieldOfReg ra, 0, rounds⟩
  | .pseed ra => ⟨0x50, 0, fieldOfReg ra, 0, 0⟩
  | .pfreq ra => ⟨0x51, 0, fieldOfReg ra, 0, 0⟩
  | .poct ra => ⟨0x52, 0, fieldOfReg ra, 0, 0⟩
  | .poff ra axis => ⟨0x53, 0, fieldOfReg ra, 0, immOfAxis axis⟩
  | .pscl ra axis => ⟨0x54, 0, fieldOfReg ra, 0, immOfAxis axis⟩
  | .pbuild => ⟨0x55, 0, 0, 0, 0⟩
  | .pn1 rd ra => ⟨0x58, fieldOfReg rd, fieldOfReg ra, 0, 0⟩
  | .pn2 rd ra => ⟨0x59, fieldOfReg rd, fieldOfReg ra, 0, 0⟩
  | .pn3 rd ra => ⟨0x5A, fieldOfReg rd, fieldOfReg ra, 0, 0⟩
  | .pn4 rd ra => ⟨0x5B, fieldOfReg rd, fieldOfReg ra, 0, 0⟩
  | .sseed ra => ⟨0x60, 0, fieldOfReg ra, 0, 0⟩
  | .sfreq ra => ⟨0x61, 0, fieldOfReg ra, 0, 0⟩
  | .soct ra => ⟨0x62, 0, fieldOfReg ra, 0, 0⟩
  | .soff ra axis => ⟨0x63, 0, fieldOfReg ra, 0, immOfAxis axis⟩
  | .sscl ra axis => ⟨0x64, 0, fieldOfReg ra, 0, immOfAxis axis⟩
  | .sbuild => ⟨0x65, 0, 0, 0, 0⟩
  | .sn2 rd ra => ⟨0x69, fieldOfReg rd, fieldOfReg ra, 0, 0⟩
  | .sn3 rd ra => ⟨0x6A, fieldOfReg rd, fieldOfReg ra, 0, 0⟩
  | .sn4 rd ra => ⟨0x6B, fieldOfReg rd, fieldOfReg ra, 0, 0⟩
  | .smip rd ra => ⟨0x6C, fieldOfReg rd, fieldOfReg ra, 0, 0⟩

/-- R101: the command that the pseudo-command `NEXT rd` expands to. -/
def pseudoNext (rd : Reg) : Instr := .nu64 rd

/-- R101: the command that `ISPRIME rd, ra`, written without a round count, expands to. -/
def pseudoIsprime (rd ra : Reg) : Instr := .isprime rd ra (BitVec.ofNat 12 Config.roundsDefault)

/-- The word of a command (R90, R95). -/
def encode (i : Instr) : Word32 := joinFields i.fields

/-- The host's entry: the command the decoder reads from the low `nbits` bits of `w`, written to `CMD` as one value. -/
def decodeTableWord (nbits w : Nat) : Option Instr :=
  match decodeCommand (BitVec.ofNat 64 (w % 2 ^ nbits)) with
  | .ok i => some i
  | .error _ => none

end Sys2Proof
end

