-- ==== Sys2Proof/Machine/State.lean ====
section
/-! DEFINITION. The state of IGE-RNC (10_state.md), the accesses of the one host port (20_memory.md), the ways a step can
stop, and the state after reset (R41, R340). -/

namespace Sys2Proof.Machine

/-- A RandomState: the generator register and its cursor (R24, R25). -/
structure Gen where
  mt  : Vector Word64 312
  mti : BitVec 9
deriving DecidableEq, Repr

/-- One event at the host port. Byte offsets lie in the register space of 8192 bytes (R60); a write carries its value in
the low bytes. `reset` is the platform's reset (R340). -/
inductive HostAccess where
  | read (offset : BitVec 13) (size : Nat)
  | write (offset : BitVec 13) (size : Nat) (value : Word64)
  | reset
deriving DecidableEq, Repr

/-- Everything the spec gives the machine, then the model's own fields. `STATUS` is computed from `seeded`, `pbuilt`,
`sbuilt` and `ecode` (R27), and `S_FREQ` reads as a constant (R33). The constant tables (R36) are no state. -/
structure State where
  /-- `r0..r15` (R21). -/
  r       : Vector Word64 16
  /-- `MT` and `MTI`, the main generator (R24, R25). -/
  gen     : Gen
  /-- `STATUS[0]` (R26). -/
  seeded  : Bool
  /-- `STATUS[1]` (R32). -/
  pbuilt  : Bool
  /-- `STATUS[2]` (R35). -/
  sbuilt  : Bool
  /-- `STATUS[15:8]` (R27, R301); `STATUS.ERR` is 1 exactly when it is not 0. -/
  ecode   : BitVec 8
  /-- `EINFO` (R28). -/
  einfo   : Word64
  /-- `P_SEED` (R29). -/
  pSeed   : Word64
  /-- `P_FREQ` (R29). -/
  pFreq   : Word64
  /-- `P_OCT` (R29). -/
  pOct    : BitVec 32
  /-- `P_OFF[0..3]`, binary64 patterns (R29). -/
  pOff    : Vector Word64 4
  /-- `P_SCL[0..3]`, binary64 patterns (R29). -/
  pScl    : Vector Word64 4
  /-- `VAL`, binary64 patterns (R30). -/
  val     : Vector Word64 4096
  /-- `PERM[0..3]` (R30). -/
  perm    : Vector (Vector Nat 8192) 4
  /-- `S_SEED` (R33). -/
  sSeed   : Word64
  /-- `S_OCT` (R33). -/
  sOct    : BitVec 32
  /-- `S_OFF[0..3]`, binary64 patterns (R33). -/
  sOff    : Vector Word64 4
  /-- `S_SCL[0..3]`, binary64 patterns (R33). -/
  sScl    : Vector Word64 4
  /-- `SP` (R34). -/
  sp      : Vector Byte 512
  /-- `SM12` (R34). -/
  sm12    : Vector (Fin 12) 512
  /-- `SM32` (R34). -/
  sm32    : Vector (Fin 32) 512
  /-- `BUF`, the bytes written since reset, addresses strictly rising (R37). -/
  buf     : List Host.Cell
  /-- The model's own: the host accesses that the port has not yet taken, the next one first (log 4). -/
  port    : List HostAccess
  /-- The model's own: the value that the latest host read returned (log 4). -/
  rdata   : Word64
  /-- The model's own: how many resets came after the first, the argument of the free values of reset (log 2). -/
  epoch   : Nat
deriving DecidableEq, Repr

/-- No constructor: nothing in IGE-RNC stops with a fault. What the spec calls an error is a latched error (R300), a next
state. -/
inductive Fault where
deriving DecidableEq, Repr

/-- Why a step has no meaning. -/
inductive Refusal where
  /-- Raised by an arm of `exec` whose command has no meaning yet; safe. No arm of this model raises it. -/
  | notModelled (mnemonic : String)
deriving DecidableEq, Repr

/-- +0.0 on every axis (R41). -/
def State.zeroOffsets : Vector Word64 4 := Vector.replicate 4 0

/-- 1.0 on every axis (R41). -/
def State.unitScales : Vector Word64 4 := Vector.replicate 4 0x3FF0000000000000

/-- R41, R340: the state after the `k`-th reset. What the spec leaves unspecified is a free value of `k` (log 2); nothing
in `BUF` is written. The three fields of the model's own stand at their start (log 4). -/
def State.resetAt (k : Nat) : State where
  r      := Vector.replicate 16 0
  gen    := { mt := Config.mtReset k, mti := 312 }
  seeded := false
  pbuilt := false
  sbuilt := false
  ecode  := 0
  einfo  := 0
  pSeed  := 0
  pFreq  := 256
  pOct   := 1
  pOff   := State.zeroOffsets
  pScl   := State.unitScales
  val    := Config.valReset k
  perm   := Config.permReset k
  sSeed  := 0
  sOct   := 1
  sOff   := State.zeroOffsets
  sScl   := State.unitScales
  sp     := Config.spReset k
  sm12   := Config.sm12Reset k
  sm32   := Config.sm32Reset k
  buf    := []
  port   := []
  rdata  := 0
  epoch  := k

/-- The machine right after its first reset (R41, R340). -/
def State.reset : State := State.resetAt 0

end Sys2Proof.Machine
end

