-- ==== Sys2Proof/Machine/Twister.lean ====
section
/-! DEFINITION. The twisted-GFSR word generator on a RandomState (40_wordgen.md R120 to R125). The commands use it on the
main generator, the table builds on a private one (R38). -/

namespace Sys2Proof.Machine

/-- The scrambled predecessor `p ^ (p >> 62)` of the seeding recurrences (R120, R122). -/
def scramble (p : Word64) : Word64 := p ^^^ (p >>> 62)

/-- R120: one step of the single-seed recurrence. -/
def initWord (p : Word64) (i : Fin 312) : Word64 :=
  Config.gen.initMul * scramble p + BitVec.ofNat 64 i.val

/-- R120: the register after the loop `i = 1 .. 311`, from `MT[0] = s`. -/
def initRegister (s : Word64) : Vector Word64 312 :=
  (List.finRange 312).foldl
    (fun mt (i : Fin 312) => if i = 0 then mt else mt.set i (initWord mt[i - 1] i))
    (Vector.replicate 312 s)

/-- R120 `InitState`. -/
def initState (s : Word64) : Gen := { mt := initRegister s, mti := 312 }

/-- R123: the magic table, indexed by the low bit of the twist intermediate. -/
def magicWord (x : Word64) : Word64 :=
  if x.getLsbD 0 then Config.gen.mag1 else Config.gen.mag0

/-- R123: the twist of a word with its successor and the word `MM` further on. -/
def twistWord (cur next far : Word64) : Word64 :=
  let x := (cur &&& Config.gen.upperMask) ||| (next &&& Config.gen.lowerMask)
  far ^^^ (x >>> 1) ^^^ magicWord x

/-- R123: one iteration of the regeneration, in place; index sums are modulo 312. -/
def twistAt (mt : Vector Word64 312) (i : Fin 312) : Vector Word64 312 :=
  mt.set i (twistWord mt[i] mt[i + 1] mt[i + 156])

/-- R123: the register after the loop `i = 0 .. 311`. -/
def twistRegister (mt : Vector Word64 312) : Vector Word64 312 :=
  (List.finRange 312).foldl twistAt mt

/-- R123 `Regenerate`. -/
def regenerate (g : Gen) : Gen := { mt := twistRegister g.mt, mti := 0 }

/-- R125 `Temper`. -/
def temper (x0 : Word64) : Word64 :=
  let x1 := x0 ^^^ ((x0 >>> 29) &&& Config.gen.temper1)
  let x2 := x1 ^^^ ((x1 <<< 17) &&& Config.gen.temper2)
  let x3 := x2 ^^^ ((x2 <<< 37) &&& Config.gen.temper3)
  x3 ^^^ (x3 >>> 43)

/-- R124: the register is used up, so the next draw regenerates it first. -/
def refill (g : Gen) : Gen := if 312 ≤ g.mti.toNat then regenerate g else g

/-- R124 `NextWord`: the word drawn and the generator after it. -/
def nextWord (g : Gen) : Word64 × Gen :=
  let g' := refill g
  (temper (g'.mt.getD g'.mti.toNat 0), { g' with mti := g'.mti + 1 })

/-- The first `n` words drawn, in order, and the generator after them (R14). -/
def drawWords : Nat → Gen → List Word64 × Gen
  | 0, g => ([], g)
  | n + 1, g =>
    let (w, g1) := nextWord g
    let (ws, g2) := drawWords n g1
    (w :: ws, g2)

/-- The position of an array-seeding loop: the register, `i` and `j` (R122). -/
structure ArrayLoop where
  mt : Vector Word64 312
  i  : Fin 312
  j  : Nat

/-- R122: what both mixing loops do after a word is replaced: `i <- i + 1`, and at 312 `MT[0] <- MT[311]; i <- 1`. -/
def wrapIndex (mt : Vector Word64 312) (i : Fin 312) : Vector Word64 312 × Fin 312 :=
  if 312 ≤ i.val + 1 then (mt.set 0 mt[311], 1) else (mt, i + 1)

/-- R122: one iteration of the first mixing loop, over the key. -/
def arrayMix1 (key : List Word64) (l : ArrayLoop) : ArrayLoop :=
  let mixed := (l.mt[l.i] ^^^ (scramble l.mt[l.i - 1] * Config.gen.arrMul1)) + key.getD l.j 0 + BitVec.ofNat 64 l.j
  let (mt, i) := wrapIndex (l.mt.set l.i mixed) l.i
  { mt, i, j := if key.length ≤ l.j + 1 then 0 else l.j + 1 }

/-- R122: one iteration of the second mixing loop. -/
def arrayMix2 (l : ArrayLoop) : ArrayLoop :=
  let mixed := (l.mt[l.i] ^^^ (scramble l.mt[l.i - 1] * Config.gen.arrMul2)) - BitVec.ofNat 64 l.i.val
  let (mt, i) := wrapIndex (l.mt.set l.i mixed) l.i
  { mt, i, j := l.j }

/-- `f` applied `n` times. -/
def repeatTimes {α : Type} (f : α → α) : Nat → α → α
  | 0, a => a
  | n + 1, a => repeatTimes f n (f a)

/-- R122: the generator seeded from a key. -/
def arrayState (key : List Word64) : Gen :=
  let start : ArrayLoop := { mt := initRegister Config.gen.arrSeed, i := 1, j := 0 }
  let mid := repeatTimes (arrayMix1 key) (max 312 key.length) start
  let done := repeatTimes arrayMix2 311 mid
  { mt := done.mt.set 0 Config.gen.arrTop, mti := 312 }

end Sys2Proof.Machine
end

