-- ==== Sys2Proof/Machine/Ops.lean ====
section
/-! DEFINITION. The named operations on registers, on the buffer memory, on the main generator and on the error latch. Taking
an error (R303, R315) and clearing it (R316) are each one shared operation. -/

namespace Sys2Proof.Machine

/-- What a command answers. -/
abbrev Result := Host.Outcome State Fault Refusal

/-! Operand registers (R11, R21). -/

/-- `r[k]`. -/
def State.reg (s : State) (k : Reg) : Word64 := s.r[k]

/-- `r[k] <- v`. -/
def State.setReg (s : State) (k : Reg) (v : Word64) : State := { s with r := s.r.set k v }

/-- `q(k) <- v`: the pair `r[k], r[k+1]`, low half first, takes `v mod 2^128` (R13). -/
def State.setPair (s : State) (k : Reg) (v : Int) : State :=
  let raw := BitVec.ofInt 128 v
  (s.setReg k (raw.extractLsb' 0 64)).setReg (k + 1) (raw.extractLsb' 64 64)

/-! The buffer memory (R37, R64 to R67). -/

/-- The byte listed at an address; nothing where no byte has been written since reset. -/
def Memory.read? (m : List Host.Cell) (addr : Nat) : Option Byte :=
  m.lookup addr

/-- The bytes `bs` written at `addr`, `addr + 1`, …; every other address keeps what it has (R67). -/
def Memory.store (m : List Host.Cell) (addr : Nat) (bs : List Byte) : List Host.Cell :=
  m.filter (fun c => c.1 < addr) ++ bs.mapIdx (fun k b => (addr + k, b))
    ++ m.filter (fun c => addr + bs.length ≤ c.1)

/-- The addresses rise strictly and lie in BUF: the one form of a memory. What an unlisted address reads as is no byte, so
no entry can equal it. -/
def Memory.wf (m : List Host.Cell) : Bool :=
  decide ((m.map Prod.fst).Pairwise (· < ·)) && m.all (fun c => decide (c.1 < Config.bufBytes))

/-- The low `8n` bits of a value as `n` bytes, least significant first (R65). -/
def bytesLE : Nat → Nat → List Byte
  | 0, _ => []
  | n + 1, v => BitVec.ofNat 8 v :: bytesLE n (v / 256)

/-- The number that bytes spell, least significant first (R65). -/
def natOfBytes : List Byte → Nat
  | [] => 0
  | b :: bs => b.toNat + 256 * natOfBytes bs

/-- `BUF[a]`. A byte that nothing has written since reset holds an arbitrary, stable value (R37, log 3). -/
def State.bufRead (s : State) (addr : Nat) : Byte :=
  (Memory.read? s.buf addr).getD (Config.bufByte s.epoch addr)

/-- `MemRead(addr, n)` (R66). -/
def State.memRead (s : State) (addr n : Nat) : Nat :=
  natOfBytes ((List.range n).map fun k => s.bufRead (addr + k))

/-- Bytes written to BUF from `addr` on (R67). -/
def State.storeBytes (s : State) (addr : Nat) (bs : List Byte) : State :=
  { s with buf := Memory.store s.buf addr bs }

/-- `MemWrite(addr, n, v)` (R67). -/
def State.memWrite (s : State) (addr n v : Nat) : State := s.storeBytes addr (bytesLE n v)

/-! The main generator (R24 to R26). -/

/-- The main generator replaced, by a seeding or a draw. -/
def State.setGen (s : State) (g : Gen) : State := { s with gen := g }

/-- `SEEDED <- 1` (R26). -/
def State.markSeeded (s : State) : State := { s with seeded := true }

/-! The error latch (R300 to R304, R315, R316). -/

/-- The errors of R301. -/
inductive Err where
  | illegal | unseeded | config | format | notBuilt | operand | bus
deriving DecidableEq, Repr

/-- R301: the code of an error. -/
def Err.code : Err → BitVec 8
  | .illegal  => 1
  | .unseeded => 2
  | .config   => 3
  | .format   => 4
  | .notBuilt => 5
  | .operand  => 6
  | .bus      => 7

/-- Taking an error: `ECODE` and `EINFO` are written, nothing else changes (R303, R315). First error wins: with an error
latched, nothing is written (R302). -/
def State.latch (s : State) (e : Err) (info : Word64) : State :=
  if s.ecode = 0 then { s with ecode := e.code, einfo := info } else s

/-- `raise E` inside a command: `EINFO` is the command word, zero-extended (R28, R303). The word of a command is its encoding
(log 6). -/
def State.raise (s : State) (e : Err) (i : Instr) : State := s.latch e ((encode i).setWidth 64)

/-- The return from the error state (R316). -/
def State.clearError (s : State) : State := { s with ecode := 0, einfo := 0 }

/-- A command's check: where it fails, the command raises the error and ends (R303); else `k` goes on from the same state. -/
def check (ok : Bool) (e : Err) (i : Instr) (s : State) (k : State → Result) : Result :=
  if ok then k s else .next (s.raise e i)

/-- A command that breaks R92 is illegal (R98). Decoding gives none (log 7). -/
def checkLegal (i : Instr) (s : State) (k : State → Result) : Result := check i.wellFormed .illegal i s k

/-- R150: `SEEDED` is checked, then the operands, then one word is drawn and the result written. -/
def drawCommand (i : Instr) (operandsOk : Bool) (s : State) (write : Word64 → State → State) : Result :=
  check s.seeded .unseeded i s fun s => check operandsOk .operand i s fun s =>
    let drawn := nextWord s.gen
    .next (write drawn.1 (s.setGen drawn.2))

end Sys2Proof.Machine
end

