-- ==== Sys2Proof/Machine/Operands.lean ====
section
/-! DEFINITION. The operand forms: the ways a command reads its registers and fields (00_scope.md R10 to R13, 30_encoding.md
R92, R93). -/

namespace Sys2Proof.Machine

/-- `u(r[k])` (R10). -/
def State.regU (s : State) (k : Reg) : Int := (s.reg k).toNat

/-- `s(r[k])` (R10). -/
def State.regS (s : State) (k : Reg) : Int := (s.reg k).toInt

/-- `r[k][31:0]` (R10). -/
def State.regLow (s : State) (k : Reg) : BitVec 32 := (s.reg k).setWidth 32

/-- `r[k][31:0]`, unsigned (R160). -/
def State.regU32 (s : State) (k : Reg) : Int := (s.regLow k).toNat

/-- `sext_32(r[k][31:0])` (R10, R162). -/
def State.regS32 (s : State) (k : Reg) : Int := (s.regLow k).toInt

/-- `r[k]` as binary64 (R12). -/
def State.regF (s : State) (k : Reg) : F64 := fOfBits (s.reg k)

/-- `q(k)`: the pair `r[k], r[k+1]` as the signed integer `raw` (R13). -/
def State.regQ (s : State) (k : Reg) : Int := (s.reg (k + 1) ++ s.reg k : BitVec 128).toInt

/-- The coordinate group of `n` registers from `k` on, as binary64 (R92, R220). -/
def State.group (s : State) (k : Reg) (n : Nat) : List F64 :=
  (List.range n).map fun j => s.regF (k + Fin.ofNat 16 j)

/-- The index of an axis (R93). -/
def axisIndex : Axis → Fin 4
  | .x => 0
  | .y => 1
  | .z => 2
  | .t => 3

/-- An integer written in 64-bit two's complement (R10). -/
def wordOfInt (n : Int) : Word64 := BitVec.ofInt 64 n

/-- Four binary64 registers as values, in the order X, Y, Z, T (R29, R33). -/
def axisValues (v : Vector Word64 4) : List F64 := v.toList.map fOfBits

end Sys2Proof.Machine
end

