-- ==== Sys2Proof/Machine/Octave.lean ====
section
/-! DEFINITION. The octave blender and the frame that every noise evaluation command shares (43_octave_perlin.md R220 to
R223). -/

namespace Sys2Proof.Machine

/-- The binary64 value 0.5. -/
def fHalf : F64 := .fin false (2 ^ 1073)

/-- The binary64 value 1.0. -/
def fOne : F64 := .fin false (2 ^ 1074)

/-- The binary64 value 2.0. -/
def fTwo : F64 := .fin false (2 ^ 1075)

/-- R223: `c[a] <- (x[a] ⊕ OFF[a]) ⊗ SCL[a]`, as many axes as there are coordinates. -/
def placeCoords (x off scl : List F64) : List F64 :=
  List.zipWith fMul (List.zipWith fAdd x off) scl

/-- R223: the octaves still to run, from the coordinates, the amplitude, the sum and the normaliser so far. `none` where
`base` raises `ERR_OPERAND`. -/
def blendLoop (base : List F64 → Option F64) : Nat → List F64 → F64 → F64 → F64 → Option F64
  | 0, _, _, sum, norm => some (fDiv sum norm)
  | n + 1, c, amp, sum, norm =>
    let amp' := fMul amp fHalf
    match base c with
    | none => none
    | some v => blendLoop base n (c.map fun v => fMul v fTwo) amp' (fAdd sum (fMul amp' v)) (fAdd norm amp')

/-- R223 `Blend`. With a count ≤ 0 the result is +0.0 and nothing is evaluated. -/
def blend (base : List F64 → Option F64) (x off scl : List F64) (oct : Int) : Option F64 :=
  if oct ≤ 0 then some fZero else blendLoop base oct.toNat (placeCoords x off scl) fTwo fZero fZero

/-- R220: the tables are built, else `ERR_NOTBUILT`; the evaluation, which may raise `ERR_OPERAND`; then the one result. -/
def evaluate (i : Instr) (rd : Reg) (built : Bool) (value : State → Option F64) (s : State) : Result :=
  checkLegal i s fun s => check built .notBuilt i s fun s =>
    match value s with
    | none => .next (s.raise .operand i)
    | some v => .next (s.setReg rd (fToBits v))

end Sys2Proof.Machine
end

