-- ==== Sys2Proof/Machine/RangeMap.lean ====
section
/-! DEFINITION. The range mapper (41_rangemap.md R150 to R180). Each command draws one word. -/

namespace Sys2Proof.Machine

/-- R154 `Map64`. -/
def map64 (w : Word64) (lo hi : Int) : Int := lo + (w.toNat : Int) * (hi - lo + 1) / 2 ^ 64

/-- The binary64 value 2^-53 (R159, R165). -/
def twoPowMinus53 : F64 := .fin false (2 ^ 1021)

/-- R165 `UnitTrunc`: the top 53 bits of the word times 2^-53. -/
def unitTrunc (w : Word64) : F64 := fMul (fOfInt (w >>> 11).toNat) twoPowMinus53

/-- R165 `UnitInc`: the top 53 bits of the word times `MINC`. -/
def unitInc (w : Word64) : F64 := fMul (fOfInt (w >>> 11).toNat) (fOfBits Config.mInc)

/-- R159 `Map32`, rounding as written. The product is finite, so its floor exists. -/
def map32 (w : Word64) (lo hi : Int) : Int :=
  lo + (ifloor (fMul (unitTrunc w) (fOfInt (hi - lo + 1)))).getD 0

/-- R151. -/
def execNu32 (rd : Reg) (s : State) : Result :=
  drawCommand (.nu32 rd) true s fun w t => t.setReg rd ((w.setWidth 32).setWidth 64)

/-- R152. -/
def execNi64 (rd : Reg) (s : State) : Result :=
  drawCommand (.ni64 rd) true s fun w t => t.setReg rd w

/-- R153. -/
def execNi32 (rd : Reg) (s : State) : Result :=
  drawCommand (.ni32 rd) true s fun w t => t.setReg rd ((w.setWidth 32).signExtend 64)

/-- A bounded integer output: the range is checked and a mapper applied (R155 to R163). -/
def drawBounded (i : Instr) (rd : Reg) (lo hi : Int) (mapper : Word64 → Int → Int → Int) (s : State) : Result :=
  drawCommand i (decide (lo ≤ hi)) s fun w t => t.setReg rd (wordOfInt (mapper w lo hi))

/-- R155. -/
def execNu64r (rd ra rb : Reg) (s : State) : Result :=
  drawBounded (.nu64r rd ra rb) rd (s.regU ra) (s.regU rb) map64 s

/-- R160. -/
def execNu32r (rd ra rb : Reg) (s : State) : Result :=
  drawBounded (.nu32r rd ra rb) rd (s.regU32 ra) (s.regU32 rb) map32 s

/-- R157. -/
def execNi64r (rd ra rb : Reg) (s : State) : Result :=
  drawBounded (.ni64r rd ra rb) rd (s.regS ra) (s.regS rb) map64 s

/-- R162. -/
def execNi32r (rd ra rb : Reg) (s : State) : Result :=
  drawBounded (.ni32r rd ra rb) rd (s.regS32 ra) (s.regS32 rb) map32 s

/-- R156. The bounds 0 and `u(r[ra])` are always in order. -/
def execNu64m (rd ra : Reg) (s : State) : Result :=
  drawBounded (.nu64m rd ra) rd 0 (s.regU ra) map64 s

/-- R161. The bounds 0 and `r[ra][31:0]` are always in order. -/
def execNu32m (rd ra : Reg) (s : State) : Result :=
  drawBounded (.nu32m rd ra) rd 0 (s.regU32 ra) map32 s

/-- R158. -/
def execNi64m (rd ra : Reg) (s : State) : Result :=
  drawBounded (.ni64m rd ra) rd 0 (s.regS ra) map64 s

/-- R163. -/
def execNi32m (rd ra : Reg) (s : State) : Result :=
  drawBounded (.ni32m rd ra) rd 0 (s.regS32 ra) map32 s

/-- A double output: the value of the word drawn goes to `rd` as a pattern (R166 to R171). -/
def drawDouble (i : Instr) (rd : Reg) (operandsOk : Bool) (value : Word64 → F64) (s : State) : Result :=
  drawCommand i operandsOk s fun w t => t.setReg rd (fToBits (value w))

/-- The operand check of `NDM` and `NTDM`: finite and not below 0 (R167, R170). -/
def maxOk (mx : F64) : Bool := fFinite mx && !fLt mx fZero

/-- The operand check of `NDR` and `NTDR`: both finite, in order, and so is their difference (R168, R171). -/
def rangeOk (mn mx : F64) : Bool := fFinite mn && fFinite mx && !fLt mx mn && fFinite (fSub mx mn)

/-- `mn ⊕ (u ⊗ (mx ⊖ mn))` (R168, R171). -/
def doubleInRange (u mn mx : F64) : F64 := fAdd mn (fMul u (fSub mx mn))

/-- R166. -/
def execNd (rd : Reg) (s : State) : Result := drawDouble (.nd rd) rd true unitInc s

/-- R167. -/
def execNdm (rd ra : Reg) (s : State) : Result :=
  drawDouble (.ndm rd ra) rd (maxOk (s.regF ra)) (fun w => fMul (unitInc w) (s.regF ra)) s

/-- R168. -/
def execNdr (rd ra rb : Reg) (s : State) : Result :=
  drawDouble (.ndr rd ra rb) rd (rangeOk (s.regF ra) (s.regF rb))
    (fun w => doubleInRange (unitInc w) (s.regF ra) (s.regF rb)) s

/-- R169. -/
def execNtd (rd : Reg) (s : State) : Result := drawDouble (.ntd rd) rd true unitTrunc s

/-- R170. -/
def execNtdm (rd ra : Reg) (s : State) : Result :=
  drawDouble (.ntdm rd ra) rd (maxOk (s.regF ra)) (fun w => fMul (unitTrunc w) (s.regF ra)) s

/-- R171. -/
def execNtdr (rd ra rb : Reg) (s : State) : Result :=
  drawDouble (.ntdr rd ra rb) rd (rangeOk (s.regF ra) (s.regF rb))
    (fun w => doubleInRange (unitTrunc w) (s.regF ra) (s.regF rb)) s

/-- R173 `HpInc`. -/
def hpInc (w : Word64) (span : Int) : Int := (w.toNat : Int) * span / (2 ^ 64 - 1)

/-- R173 `HpTrunc`. -/
def hpTrunc (w : Word64) (span : Int) : Int := (w.toNat : Int) * span / 2 ^ 64

/-- A fixed-point output: the value of the word drawn goes to the pair at `rd` (R172). -/
def drawFixed (i : Instr) (rd : Reg) (operandsOk : Bool) (value : Word64 → Int) (s : State) : Result :=
  checkLegal i s fun s => drawCommand i operandsOk s fun w t => t.setPair rd (value w)

/-- R174. -/
def execNh (rd : Reg) (s : State) : Result := drawFixed (.nh rd) rd true (fun w => hpInc w (2 ^ 64)) s

/-- R175. -/
def execNhm (rd ra : Reg) (s : State) : Result :=
  drawFixed (.nhm rd ra) rd (decide (0 ≤ s.regQ ra)) (fun w => hpInc w (s.regQ ra)) s

/-- R176. -/
def execNhr (rd ra rb : Reg) (s : State) : Result :=
  drawFixed (.nhr rd ra rb) rd (decide (s.regQ ra ≤ s.regQ rb))
    (fun w => s.regQ ra + hpInc w (s.regQ rb - s.regQ ra)) s

/-- R177. -/
def execNth (rd : Reg) (s : State) : Result := drawFixed (.nth rd) rd true (fun w => hpTrunc w (2 ^ 64)) s

/-- R178. -/
def execNthm (rd ra : Reg) (s : State) : Result :=
  drawFixed (.nthm rd ra) rd (decide (0 ≤ s.regQ ra)) (fun w => hpTrunc w (s.regQ ra)) s

/-- R179. -/
def execNthr (rd ra rb : Reg) (s : State) : Result :=
  drawFixed (.nthr rd ra rb) rd (decide (s.regQ ra ≤ s.regQ rb))
    (fun w => s.regQ ra + hpTrunc w (s.regQ rb - s.regQ ra)) s

end Sys2Proof.Machine
end

