-- ==== Sys2Proof/Machine/Perlin.lean ====
section
/-! DEFINITION. The Perlin lattice interpolator (43_octave_perlin.md R224 to R240). -/

namespace Sys2Proof.Machine

/-- R229: `swap PERM[a][i] and PERM[a][j]`, on the entries in use. -/
def swapAt (p : List Nat) (i j : Nat) : List Nat := (p.set i (p.getD j 0)).set j (p.getD i 0)

/-- R229: one step of a shuffle pass: one word is drawn and chooses the partner of entry `i`. -/
def shuffleStep (freq : Nat) (st : List Nat × Gen) (i : Nat) : List Nat × Gen :=
  let (w, g) := nextWord st.2
  (swapAt st.1 i (map32 w 0 ((freq : Int) - 1)).toNat, g)

/-- R229: one shuffle pass, over `i = 0 .. F − 1`. -/
def shufflePass (freq : Nat) (st : List Nat × Gen) : List Nat × Gen :=
  (List.range freq).foldl (shuffleStep freq) st

/-- R229: the entries `0 .. F − 1` of one axis: identity, then five passes. -/
def shuffledAxis (freq : Nat) (g : Gen) : List Nat × Gen :=
  repeatTimes (shufflePass freq) Config.shufflePasses (List.range freq, g)

/-- R229: the table of one axis with its first `2F` entries rebuilt, the second half a copy of the first. -/
def installAxis (p : List Nat) (old : Vector Nat 8192) : Vector Nat 8192 :=
  Vector.ofFn fun i : Fin 8192 => (p ++ p).getD i.val old[i]

/-- R229: the value lattice with its first `F` entries rebuilt, each the truncated unit double of one word. -/
def installValues (ws : List Word64) (old : Vector Word64 4096) : Vector Word64 4096 :=
  Vector.ofFn fun i : Fin 4096 => ((ws.map fun w => fToBits (unitTrunc w))).getD i.val old[i]

/-- R229: the four axes one after another, X, Y, Z, T. -/
def shuffledAxes (freq : Nat) (g : Gen) : Vector (List Nat) 4 :=
  let x := shuffledAxis freq g
  let y := shuffledAxis freq x.2
  let z := shuffledAxis freq y.2
  let t := shuffledAxis freq z.2
  #v[x.1, y.1, z.1, t.1]

/-- `F = P_FREQ` (R229). -/
def State.freq (s : State) : Nat := s.pFreq.toNat

/-- R229 `PerlinBuild()`, then `PBUILT <- 1`. The private generator is not kept (R38). -/
def State.perlinBuild (s : State) : State :=
  let values := drawWords s.freq (initState s.pSeed)
  let axes := shuffledAxes s.freq values.2
  { s with
    val := installValues values.1 s.val
    perm := Vector.ofFn fun a : Fin 4 => installAxis axes[a] s.perm[a]
    pbuilt := true }

/-- R224. -/
def execPseed (ra : Reg) (s : State) : Result := .next { s with pSeed := s.reg ra }.perlinBuild

/-- R225. -/
def execPfreq (ra : Reg) (s : State) : Result :=
  check (1 ≤ s.regS ra && s.regS ra ≤ Config.pFreqMax) .config (.pfreq ra) s fun s =>
    .next { s with pFreq := s.reg ra }.perlinBuild

/-- R226. -/
def execPoct (ra : Reg) (s : State) : Result := .next { s with pOct := s.regLow ra }

/-- R227. -/
def execPoff (ra : Reg) (axis : Axis) (s : State) : Result :=
  .next { s with pOff := s.pOff.set (axisIndex axis) (s.reg ra) }

/-- R228. -/
def execPscl (ra : Reg) (axis : Axis) (s : State) : Result :=
  .next { s with pScl := s.pScl.set (axisIndex axis) (s.reg ra) }

/-- R230. -/
def execPbuild (s : State) : Result := .next s.perlinBuild

/-- R231 `Fade`, in the nested form. -/
def fade (t : F64) : F64 :=
  fMul (fMul (fMul t t) t) (fAdd (fMul t (fSub (fMul t (fOfInt 6)) (fOfInt 15))) (fOfInt 10))

/-- R232 `Lerp`. -/
def lerp (t a b : F64) : F64 := fAdd a (fMul t (fSub b a))

/-- R233: `I[a]` and `T[a]` of one axis, or the `ERR_OPERAND` of `ifloor`. -/
def latticeAxis (freq : Nat) (v : F64) : Option (Nat × F64) :=
  (ifloor v).map fun n => ((n % (freq : Int)).toNat, fade (fSub v (ffloor v)))

/-- R233, over the axes in the order X, Y, Z, T. -/
def latticeAxes (freq : Nat) : List F64 → Option (List (Nat × F64))
  | [] => some []
  | v :: vs =>
    match latticeAxis freq v with
    | none => none
    | some at0 => (latticeAxes freq vs).map (at0 :: ·)

/-- `PERM[a][k]` (R30). -/
def State.permAt (s : State) (a k : Nat) : Nat := (s.perm.getD a (Vector.replicate 8192 0)).getD k 0

/-- `VAL[k]` as binary64 (R30). -/
def State.valAt (s : State) (k : Nat) : F64 := fOfBits (s.val.getD k 0)

/-- R234 `Walk`. `axes` holds `(I[a], T[a])` for each axis. -/
def State.walk (s : State) (axes : List (Nat × F64)) : Nat → Nat → F64
  | 0, off =>
    let (i, t) := axes.getD 0 (0, fZero)
    lerp t (s.valAt (s.permAt 0 (off + i))) (s.valAt (s.permAt 0 (off + i + 1)))
  | a + 1, off =>
    let (i, t) := axes.getD (a + 1) (0, fZero)
    lerp t (s.walk axes a (s.permAt (a + 1) (off + i))) (s.walk axes a (s.permAt (a + 1) (off + i + 1)))

/-- R234 `PerlinBase_d`: every `ifloor` is taken before any table is read. -/
def State.perlinBase (s : State) (c : List F64) : Option F64 :=
  (latticeAxes s.freq c).map fun axes => s.walk axes (c.length - 1) 0

/-- R235 to R238: the blended value at the `d` coordinates from `ra` on. -/
def State.perlinNoise (s : State) (ra : Reg) (d : Nat) : Option F64 :=
  blend s.perlinBase (s.group ra d) (axisValues s.pOff) (axisValues s.pScl) s.pOct.toInt

/-- R235. -/
def execPn1 (rd ra : Reg) (s : State) : Result := evaluate (.pn1 rd ra) rd s.pbuilt (fun s => s.perlinNoise ra 1) s

/-- R236. -/
def execPn2 (rd ra : Reg) (s : State) : Result := evaluate (.pn2 rd ra) rd s.pbuilt (fun s => s.perlinNoise ra 2) s

/-- R237. -/
def execPn3 (rd ra : Reg) (s : State) : Result := evaluate (.pn3 rd ra) rd s.pbuilt (fun s => s.perlinNoise ra 3) s

/-- R238. -/
def execPn4 (rd ra : Reg) (s : State) : Result := evaluate (.pn4 rd ra) rd s.pbuilt (fun s => s.perlinNoise ra 4) s

end Sys2Proof.Machine
end

