-- ==== Sys2Proof/Machine/Primality.lean ====
section
/-! DEFINITION. The prime table, the witness selector and the primality tester (42_primality.md R200 to R207). -/

namespace Sys2Proof.Machine

/-- Trial division by every number from 2 below `n`. -/
def trialPrime (n : Nat) : Bool := decide (2 ≤ n) && (List.range n).all fun d => decide (d < 2) || n % d != 0

/-- The product of the primes below 256. -/
def smallProduct : Nat := ((List.range 256).filter trialPrime).foldl (· * ·) 1

/-- R200 `ISP[n]`, for `n` in 0..65535: trial division, from 256 on by all the primes below 256 at once, as one greatest
common divisor (log 10). -/
def isp (n : Nat) : Bool := if n < 256 then trialPrime n else Nat.gcd n smallProduct == 1

/-- R200 `PRIMES`: the primes not above 65535 in ascending order. -/
def primes : List Nat := (List.range (Config.primeLimit + 1)).filter isp

/-- R201: the table index that a word selects. -/
def witnessIndex (w : Word64) : Nat := (map32 w 0 (Config.nPrimes - 1 : Nat)).toNat

/-- R201: the base that a word selects. -/
def witnessOf (w : Word64) : Nat := primes.getD (witnessIndex w) 0

/-- R202. -/
def execWitness (rd : Reg) (s : State) : Result :=
  drawCommand (.witness rd) true s fun w t => t.setReg rd (BitVec.ofNat 64 (witnessOf w))

/-- R203: some prime of the table divides `n`. -/
def hasTableFactor (n : Nat) : Bool := primes.any fun p => n % p == 0

/-- `a^d mod n`, by squaring, for `d < 2^fuel`. -/
def powMod (n : Nat) : Nat → Nat → Nat → Nat
  | 0, _, _ => 1 % n
  | fuel + 1, a, d =>
    let rest := powMod n fuel (a * a % n) (d / 2)
    if d % 2 = 1 then a * rest % n else rest

/-- `m = 2^s × d` with `d` odd, for `0 < m < 2^fuel`: the pair `(s, d)` (R205). -/
def splitTwos : Nat → Nat → Nat × Nat
  | 0, m => (0, m)
  | fuel + 1, m => if m % 2 = 0 then let sd := splitTwos fuel (m / 2); (sd.1 + 1, sd.2) else (0, m)

/-- R204: at most `k` squarings, passing at the first that gives `n − 1`. -/
def squaringsPass (n : Nat) : Nat → Nat → Bool
  | 0, _ => false
  | k + 1, x => let y := x * x % n; if y = n - 1 then true else squaringsPass n k y

/-- R204: one Miller–Rabin round; `true` is PASS. -/
def roundPasses (n s d a : Nat) : Bool :=
  let x := powMod n 64 a d
  if x = 1 ∨ x = n - 1 then true else squaringsPass n (s - 1) x

/-- R205 step 4: witnesses are drawn one a round, as needed; the answer and the generator after the rounds begun. -/
def primeRounds (n s d : Nat) : Nat → Gen → Bool × Gen
  | 0, g => (true, g)
  | k + 1, g =>
    let (w, g') := nextWord g
    if roundPasses n s d (witnessOf w) then primeRounds n s d k g' else (false, g')

/-- R205: steps 1 to 3 decide, with this answer, or do not. -/
def decideWithoutWitness (n : Int) : Option Bool :=
  if n ≤ 0 then some false
  else if n ≤ (Config.primeLimit : Int) then some (isp n.toNat)
  else if hasTableFactor n.toNat then some false
  else none

/-- The register value of an answer (R205). -/
def answerWord (b : Bool) : Word64 := if b then 1 else 0

/-- R205. `ERR_UNSEEDED` only where a witness is needed. -/
def execIsprime (rd ra : Reg) (rounds : BitVec 12) (s : State) : Result :=
  let n := s.regS ra
  match decideWithoutWitness n with
  | some b => .next (s.setReg rd (answerWord b))
  | none =>
    check (s.seeded || rounds == 0) .unseeded (.isprime rd ra rounds) s fun s =>
      let sd := splitTwos 64 (n.toNat - 1)
      let run := primeRounds n.toNat sd.1 sd.2 rounds.toNat s.gen
      .next ((s.setGen run.2).setReg rd (answerWord run.1))

end Sys2Proof.Machine
end

