-- ==== Sys2Proof/Machine/Simplex.lean ====
section
/-! DEFINITION. The simplex noise evaluator (44_simplex.md R260 to R281). -/

namespace Sys2Proof.Machine

/-- R262: the 512 entries of `SP` from the 256 words drawn: low bytes, duplicated. -/
def spTable (ws : List Word64) : Vector Byte 512 :=
  Vector.ofFn fun i : Fin 512 => (ws.getD (i.val % 256) 0).setWidth 8

/-- R262 `SimplexBuild()`, then `SBUILT <- 1`. The private generator is not kept (R38). -/
def State.simplexBuild (s : State) : State :=
  let sp := spTable (drawWords 256 (initState s.sSeed)).1
  { s with
    sp := sp
    sm12 := sp.map fun b => Fin.ofNat 12 b.toNat
    sm32 := sp.map fun b => Fin.ofNat 32 b.toNat
    sbuilt := true }

/-- R261. -/
def execSseed (ra : Reg) (s : State) : Result := .next { s with sSeed := s.reg ra }.simplexBuild

/-- R268: accepted and without effect; the register is read and ignored. -/
def execSfreq (_ra : Reg) (s : State) : Result := .next s

/-- R269. -/
def execSoct (ra : Reg) (s : State) : Result := .next { s with sOct := s.regLow ra }

/-- R270. -/
def execSoff (ra : Reg) (axis : Axis) (s : State) : Result :=
  .next { s with sOff := s.sOff.set (axisIndex axis) (s.reg ra) }

/-- R271. -/
def execSscl (ra : Reg) (axis : Axis) (s : State) : Result :=
  .next { s with sScl := s.sScl.set (axisIndex axis) (s.reg ra) }

/-- R272. -/
def execSbuild (s : State) : Result := .next s.simplexBuild

/-- `SP[k]` (R34). -/
def State.spAt (s : State) (k : Nat) : Nat := (s.sp.getD k 0).toNat

/-- `SM12[k]` (R34). -/
def State.sm12At (s : State) (k : Nat) : Nat := (s.sm12.getD k 0).val

/-- `SM32[k]` (R34). -/
def State.sm32At (s : State) (k : Nat) : Nat := (s.sm32.getD k 0).val

/-- R260: `n mod 256`. -/
def cell (n : Int) : Nat := (n % (Config.sFreq : Int)).toNat

/-- R274 to R276: the chained index: the innermost lookup is the last axis. -/
def State.chain (s : State) : List Nat → Nat
  | [] => 0
  | [k] => k
  | k :: ks => k + s.spAt (s.chain ks)

/-- R273 `Dot`, left to right. -/
def dot : List Int → List F64 → F64
  | g :: gs, p :: ps => (List.zip gs ps).foldl (fun acc gp => fAdd acc (fMul (fOfInt gp.1) gp.2)) (fMul (fOfInt g) p)
  | _, _ => fZero

/-- R273: the contribution of a corner with offset `p`, gradient `g` and radius constant `radius`. -/
def corner (radius : F64) (g : List Int) (p : List F64) : F64 :=
  let t := p.foldl (fun acc v => fSub acc (fMul v v)) radius
  if fLt fZero t then fMul (fMul (fMul t t) (fMul t t)) (dot g p) else fZero

/-- `a ⊖ f64(o) ⊕ m`, left to right: a corner offset (R274 to R276). -/
def cornerOffset (x0 : List F64) (o : List Nat) (m : F64) : List F64 :=
  List.zipWith (fun v (k : Nat) => fAdd (fSub v (fOfInt k)) m) x0 o

/-- The radius constant 0.6 (R273). -/
def f0p6 : F64 := fOfBits 0x3FE3333333333333

/-- A sum from the left that starts at its first term (R274 to R276). -/
def sumLeft : List F64 → F64
  | [] => fZero
  | v :: vs => vs.foldl fAdd v

/-- The skewed cell of a point and the point's offset in it (R274 to R276): the lattice indices, or the `ERR_OPERAND` of
`ifloor`, and the offsets. -/
def skew (f g : F64) (x : List F64) : Option (List Int × List F64) :=
  let s := fMul (sumLeft x) f
  match x.mapM fun v => ifloor (fAdd v s) with
  | none => none
  | some idx =>
    let t := fMul (fOfInt idx.sum) g
    some (idx, List.zipWith (fun v (n : Int) => fSub v (fSub (fOfInt n) t)) x idx)

/-- The table index of a corner that lies `o` steps from the cell `idx` (R274 to R276). -/
def State.cornerIndex (s : State) (idx : List Int) (o : List Nat) : Nat :=
  s.chain (List.zipWith (fun n k => cell n + k) idx o)

/-- `0.5 ⊕ (K ⊗ sum)` (R267). -/
def rescale (k : F64) (ns : List F64) : F64 := fAdd fHalf (fMul k (sumLeft ns))

/-- R274: the step to the middle corner. A tie takes `(0, 1)`. -/
def order2 (x0 y0 : F64) : List Nat := if fLt y0 x0 then [1, 0] else [0, 1]

/-- R274 `SimplexBase2`. -/
def State.simplexBase2 (s : State) (c : List F64) : Option F64 :=
  (skew (fOfBits Config.simplex.f2) (fOfBits Config.simplex.g2) c).map fun (idx, p0) =>
    let o1 := order2 (p0.getD 0 fZero) (p0.getD 1 fZero)
    let term := fun (o : List Nat) (p : List F64) =>
      corner fHalf (Config.simplex.grad3.getD (s.sm12At (s.cornerIndex idx o)) []) p
    rescale (fOfBits Config.simplex.k2)
      [term [0, 0] p0,
       term o1 (cornerOffset p0 o1 (fOfBits Config.simplex.g2)),
       term [1, 1] (cornerOffset p0 [1, 1] (fOfBits Config.simplex.twoG2))]

/-- R275: the steps to the two middle corners, by nested comparisons. -/
def order3 (x0 y0 z0 : F64) : List Nat × List Nat :=
  if fLe y0 x0 then
    if fLe z0 y0 then ([1, 0, 0], [1, 1, 0])
    else if fLe z0 x0 then ([1, 0, 0], [1, 0, 1])
    else ([0, 0, 1], [1, 0, 1])
  else
    if fLt y0 z0 then ([0, 0, 1], [0, 1, 1])
    else if fLt x0 z0 then ([0, 1, 0], [0, 1, 1])
    else ([0, 1, 0], [1, 1, 0])

/-- R275 `SimplexBase3`. -/
def State.simplexBase3 (s : State) (c : List F64) : Option F64 :=
  (skew (fOfBits Config.simplex.f3) (fOfBits Config.simplex.g3) c).map fun (idx, p0) =>
    let o := order3 (p0.getD 0 fZero) (p0.getD 1 fZero) (p0.getD 2 fZero)
    let term := fun (o : List Nat) (p : List F64) =>
      corner f0p6 (Config.simplex.grad3.getD (s.sm12At (s.cornerIndex idx o)) []) p
    rescale (fOfBits Config.simplex.k3)
      [term [0, 0, 0] p0,
       term o.1 (cornerOffset p0 o.1 (fOfBits Config.simplex.g3)),
       term o.2 (cornerOffset p0 o.2 (fOfBits Config.simplex.twoG3)),
       term [1, 1, 1] (cornerOffset p0 [1, 1, 1] (fOfBits Config.simplex.threeG3))]

/-- R266: the 6-bit comparison mask; all comparisons strict. -/
def rankMask (x0 y0 z0 w0 : F64) : Nat :=
  32 * (fLt y0 x0).toNat + 16 * (fLt z0 x0).toNat + 8 * (fLt z0 y0).toNat
    + 4 * (fLt w0 x0).toNat + 2 * (fLt w0 y0).toNat + (fLt w0 z0).toNat

/-- R276: corner `m` steps along the axes of rank `4 − m` and above. -/
def rankStep (ranks : List Nat) (m : Nat) : List Nat := ranks.map fun rk => if 4 - m ≤ rk then 1 else 0

/-- R276 `SimplexBase4`. -/
def State.simplexBase4 (s : State) (c : List F64) : Option F64 :=
  (skew (fOfBits Config.simplex.f4) (fOfBits Config.simplex.g4) c).map fun (idx, p0) =>
    let ranks := Config.rank (rankMask (p0.getD 0 fZero) (p0.getD 1 fZero) (p0.getD 2 fZero) (p0.getD 3 fZero))
    let term := fun (o : List Nat) (p : List F64) =>
      corner f0p6 (Config.simplex.grad4.getD (s.sm32At (s.cornerIndex idx o)) []) p
    rescale (fOfBits Config.simplex.k4)
      [term [0, 0, 0, 0] p0,
       term (rankStep ranks 1) (cornerOffset p0 (rankStep ranks 1) (fOfBits Config.simplex.g4)),
       term (rankStep ranks 2) (cornerOffset p0 (rankStep ranks 2) (fOfBits Config.simplex.twoG4)),
       term (rankStep ranks 3) (cornerOffset p0 (rankStep ranks 3) (fOfBits Config.simplex.threeG4)),
       term [1, 1, 1, 1] (cornerOffset p0 [1, 1, 1, 1] (fOfBits Config.simplex.fourG4))]

/-- R277 to R279: the blended value at the `d` coordinates from `ra` on. -/
def State.simplexNoise (s : State) (base : List F64 → Option F64) (ra : Reg) (d : Nat) : Option F64 :=
  blend base (s.group ra d) (axisValues s.sOff) (axisValues s.sScl) s.sOct.toInt

/-- R277. -/
def execSn2 (rd ra : Reg) (s : State) : Result :=
  evaluate (.sn2 rd ra) rd s.sbuilt (fun s => s.simplexNoise s.simplexBase2 ra 2) s

/-- R278. -/
def execSn3 (rd ra : Reg) (s : State) : Result :=
  evaluate (.sn3 rd ra) rd s.sbuilt (fun s => s.simplexNoise s.simplexBase3 ra 3) s

/-- R279. -/
def execSn4 (rd ra : Reg) (s : State) : Result :=
  evaluate (.sn4 rd ra) rd s.sbuilt (fun s => s.simplexNoise s.simplexBase4 ra 4) s

/-- R280: the loop while `s ≥ 1.0`; at most 1024 iterations (log 12). -/
def mipLoop (base : List F64 → Option F64) (p : List F64) : Nat → F64 → F64 → Option F64
  | 0, _, total => some total
  | fuel + 1, sc, total =>
    if fLe fOne sc then
      match base (p.map fun v => fDiv v sc) with
      | none => none
      | some v => mipLoop base p fuel (fMul sc fHalf) (fAdd total (fMul v sc))
    else some total

/-- R280: `size` must be finite and above 0. -/
def sizeOk (size : F64) : Bool := fFinite size && fLt fZero size

/-- R280: the accumulation, normalised by the initial size; `none` where it raises `ERR_OPERAND`. -/
def State.mip (s : State) (size : F64) (p : List F64) : Option F64 :=
  if sizeOk size then (mipLoop s.simplexBase3 p 1024 size fZero).map fun total => fDiv total size else none

/-- R280: the group of four is `size`, then the point. -/
def execSmip (rd ra : Reg) (s : State) : Result :=
  evaluate (.smip rd ra) rd s.sbuilt (fun s => s.mip (s.regF ra) ((s.group ra 4).drop 1)) s

end Sys2Proof.Machine
end

