-- ==== Sys2Proof/Machine/System.lean ====
section
/-! DEFINITION. `NOP` and `CLRERR` (60_exceptions.md R316, R317). -/

namespace Sys2Proof.Machine

/-- R317. -/
def execNop (s : State) : Result := .next s

/-- R316. -/
def execClrerr (s : State) : Result := .next s.clearError

end Sys2Proof.Machine
end

