-- ==== Sys2Proof/Machine/WordGen.lean ====
section
/-! DEFINITION. Seeding, serialising and byte filling (40_wordgen.md R121, R122, R126, R128 to R132). -/

namespace Sys2Proof.Machine

/-- A generator that a seeding has made takes the main generator's place, and `SEEDED <- 1` (R121, R122, R129). -/
def State.seedWith (s : State) (g : Gen) : State := (s.setGen g).markSeeded

/-- R121. -/
def execSeed (ra : Reg) (s : State) : Result := .next (s.seedWith (initState (s.reg ra)))

/-- R122: `key[j] = MemRead(8j, 8)` for `j = 0 .. n − 1`. -/
def State.seedKey (s : State) (n : Nat) : List Word64 :=
  (List.range n).map fun j => BitVec.ofNat 64 (s.memRead (8 * j) 8)

/-- R122. The key has 1 to 512 words, else `ERR_CONFIG` (R308). -/
def execSeeda (ra : Reg) (s : State) : Result :=
  let n := (s.reg ra).toNat
  check (1 ≤ n && 8 * n ≤ Config.bufBytes) .config (.seeda ra) s fun s =>
    .next (s.seedWith (arrayState (s.seedKey n)))

/-- R126. -/
def execNu64 (rd : Reg) (s : State) : Result :=
  drawCommand (.nu64 rd) true s fun w t => t.setReg rd w

/-- R128: the header of the serialised state that `RESTORE` verifies, `BUF[0..39]`. -/
def serialHeader : List Byte :=
  bytesLE 4 312 ++ bytesLE 4 156 ++ bytesLE 8 Config.gen.upperMask.toNat ++ bytesLE 8 Config.gen.lowerMask.toNat
    ++ bytesLE 8 Config.gen.mag0.toNat ++ bytesLE 8 Config.gen.mag1.toNat

/-- R128: the 2540 bytes of the serialised state, in the order of its table. -/
def serialise (g : Gen) : List Byte :=
  serialHeader ++ bytesLE 4 g.mti.toNat ++ g.mt.toList.flatMap fun w => bytesLE 8 w.toNat

/-- R128. -/
def execSave (s : State) : Result :=
  check s.seeded .unseeded .save s fun s => .next (s.storeBytes 0 (serialise s.gen))

/-- A field of the serialised state that is a 4-byte signed integer (R128, R129). -/
def State.memInt4 (s : State) (addr : Nat) : Int := (BitVec.ofNat 32 (s.memRead addr 4)).toInt

/-- R129: the four structural constants, the magic table and the cursor range are as they must be. -/
def State.imageOk (s : State) : Bool :=
  s.memInt4 0 == 312 && s.memInt4 4 == 156
    && s.memRead 8 8 == Config.gen.upperMask.toNat && s.memRead 16 8 == Config.gen.lowerMask.toNat
    && s.memRead 24 8 == Config.gen.mag0.toNat && s.memRead 32 8 == Config.gen.mag1.toNat
    && decide (0 ≤ s.memInt4 40) && decide (s.memInt4 40 ≤ 312)

/-- R129: the generator that the image in BUF describes. -/
def State.imageGen (s : State) : Gen where
  mt  := Vector.ofFn fun i : Fin 312 => BitVec.ofNat 64 (s.memRead (44 + 8 * i.val) 8)
  mti := BitVec.ofInt 9 (s.memInt4 40)

/-- R129: every check comes before any write. -/
def execRestore (s : State) : Result :=
  check s.imageOk .format .restore s fun s => .next (s.seedWith s.imageGen)

/-- R131: the first `count` bytes of successive words, each word's bytes least significant first, and the generator after
the `(count + 7) div 8` draws. -/
def fillBytes (count : Nat) (g : Gen) : List Byte × Gen :=
  let (ws, g') := drawWords ((count + 7) / 8) g
  ((ws.flatMap fun w => bytesLE 8 w.toNat).take count, g')

/-- R131. -/
def execNbytes (ra : Reg) (s : State) : Result :=
  let count := (s.reg ra).toNat
  check s.seeded .unseeded (.nbytes ra) s fun s =>
    check (count ≤ Config.bufBytes) .operand (.nbytes ra) s fun s =>
      let filled := fillBytes count s.gen
      .next ((s.setGen filled.2).storeBytes 0 filled.1)

/-- R132: as R131, then one zero byte. -/
def execNbytesz (ra : Reg) (s : State) : Result :=
  let count := (s.reg ra).toNat
  check s.seeded .unseeded (.nbytesz ra) s fun s =>
    check (count + 1 ≤ Config.bufBytes) .operand (.nbytesz ra) s fun s =>
      let filled := fillBytes count s.gen
      .next ((s.setGen filled.2).storeBytes 0 (filled.1 ++ [0]))

end Sys2Proof.Machine
end

