-- ==== Sys2Proof/Machine/Dispatch.lean ====
section
/-! DEFINITION. One arm for each command of the opcode table (R95): the command's own execution, after the entry checks of the
host port (R314 steps 0 to 2). -/

namespace Sys2Proof.Machine

def exec (i : Instr) (s : State) : Host.Outcome State Fault Refusal :=
  match i with
  | .nop => Sys2Proof.Machine.execNop s
  | .clrerr => Sys2Proof.Machine.execClrerr s
  | .seed ra => Sys2Proof.Machine.execSeed ra s
  | .seeda ra => Sys2Proof.Machine.execSeeda ra s
  | .save => Sys2Proof.Machine.execSave s
  | .restore => Sys2Proof.Machine.execRestore s
  | .nbytes ra => Sys2Proof.Machine.execNbytes ra s
  | .nbytesz ra => Sys2Proof.Machine.execNbytesz ra s
  | .nu64 rd => Sys2Proof.Machine.execNu64 rd s
  | .nu32 rd => Sys2Proof.Machine.execNu32 rd s
  | .ni64 rd => Sys2Proof.Machine.execNi64 rd s
  | .ni32 rd => Sys2Proof.Machine.execNi32 rd s
  | .nu64r rd ra rb => Sys2Proof.Machine.execNu64r rd ra rb s
  | .nu32r rd ra rb => Sys2Proof.Machine.execNu32r rd ra rb s
  | .ni64r rd ra rb => Sys2Proof.Machine.execNi64r rd ra rb s
  | .ni32r rd ra rb => Sys2Proof.Machine.execNi32r rd ra rb s
  | .nu64m rd ra => Sys2Proof.Machine.execNu64m rd ra s
  | .nu32m rd ra => Sys2Proof.Machine.execNu32m rd ra s
  | .ni64m rd ra => Sys2Proof.Machine.execNi64m rd ra s
  | .ni32m rd ra => Sys2Proof.Machine.execNi32m rd ra s
  | .nd rd => Sys2Proof.Machine.execNd rd s
  | .ndm rd ra => Sys2Proof.Machine.execNdm rd ra s
  | .ndr rd ra rb => Sys2Proof.Machine.execNdr rd ra rb s
  | .ntd rd => Sys2Proof.Machine.execNtd rd s
  | .ntdm rd ra => Sys2Proof.Machine.execNtdm rd ra s
  | .ntdr rd ra rb => Sys2Proof.Machine.execNtdr rd ra rb s
  | .nh rd => Sys2Proof.Machine.execNh rd s
  | .nhm rd ra => Sys2Proof.Machine.execNhm rd ra s
  | .nhr rd ra rb => Sys2Proof.Machine.execNhr rd ra rb s
  | .nth rd => Sys2Proof.Machine.execNth rd s
  | .nthm rd ra => Sys2Proof.Machine.execNthm rd ra s
  | .nthr rd ra rb => Sys2Proof.Machine.execNthr rd ra rb s
  | .witness rd => Sys2Proof.Machine.execWitness rd s
  | .isprime rd ra rounds => Sys2Proof.Machine.execIsprime rd ra rounds s
  | .pseed ra => Sys2Proof.Machine.execPseed ra s
  | .pfreq ra => Sys2Proof.Machine.execPfreq ra s
  | .poct ra => Sys2Proof.Machine.execPoct ra s
  | .poff ra axis => Sys2Proof.Machine.execPoff ra axis s
  | .pscl ra axis => Sys2Proof.Machine.execPscl ra axis s
  | .pbuild => Sys2Proof.Machine.execPbuild s
  | .pn1 rd ra => Sys2Proof.Machine.execPn1 rd ra s
  | .pn2 rd ra => Sys2Proof.Machine.execPn2 rd ra s
  | .pn3 rd ra => Sys2Proof.Machine.execPn3 rd ra s
  | .pn4 rd ra => Sys2Proof.Machine.execPn4 rd ra s
  | .sseed ra => Sys2Proof.Machine.execSseed ra s
  | .sfreq ra => Sys2Proof.Machine.execSfreq ra s
  | .soct ra => Sys2Proof.Machine.execSoct ra s
  | .soff ra axis => Sys2Proof.Machine.execSoff ra axis s
  | .sscl ra axis => Sys2Proof.Machine.execSscl ra axis s
  | .sbuild => Sys2Proof.Machine.execSbuild s
  | .sn2 rd ra => Sys2Proof.Machine.execSn2 rd ra s
  | .sn3 rd ra => Sys2Proof.Machine.execSn3 rd ra s
  | .sn4 rd ra => Sys2Proof.Machine.execSn4 rd ra s
  | .smip rd ra => Sys2Proof.Machine.execSmip rd ra s

end Sys2Proof.Machine
end

