-- ==== Sys2Proof/Machine/Flags.lean ====
section
/-! DEFINITION. The only status bits of the machine (10_state.md R22, R27): how `STATUS` is computed from the state. -/

namespace Sys2Proof.Machine

/-- R27: `ERR` is 1 exactly when `ECODE ≠ 0`. -/
def State.err (s : State) : Bool := s.ecode != 0

/-- A Boolean as one bit. -/
def bitOf (b : Bool) : BitVec 1 := if b then 1 else 0

/-- R27: `STATUS`, bits 63:16 and 7:4 reading as 0. -/
def State.status (s : State) : Word64 :=
  (0 : BitVec 48) ++ s.ecode ++ (0 : BitVec 4) ++ bitOf s.err ++ bitOf s.sbuilt ++ bitOf s.pbuilt ++ bitOf s.seeded

end Sys2Proof.Machine
end

