-- ==== Sys2Proof/Machine/Port.lean ====
section
/-! DEFINITION. The host port: the register space, the issue of a command, refused accesses and reset (20_memory.md R60 to R69,
60_exceptions.md R304 to R306 and R314, 70_reset_and_hazards.md R340). -/

namespace Sys2Proof.Machine

/-- The one command that runs while an error is latched, as the value written (R304). -/
def clrerrValue : Word64 := 0x0000000001000000

/-- R314 steps 1, 2 and on: what a write of `v` to `CMD` does (R63, R98, R304, R305). -/
def issue (v : Word64) (s : State) : Result :=
  match s.err with
  | true => if v = clrerrValue then exec .clrerr s else .next s
  | false =>
    match decodeCommand v with
    | .ok i => exec i s
    | .error _ => .next (s.latch .illegal ((v.setWidth 32).setWidth 64))

/-- One of four registers at `base`, `base + 8`, … (R61). -/
def fourRegs (v : Vector Word64 4) (base offset : Nat) : Option Word64 :=
  if base ≤ offset then v[(offset - base) / 8]? else none

/-- R61: what an aligned 8-byte read below 0x1000 returns; `none` where the offset is unmapped or may not be read. -/
def State.readRegister (s : State) (offset : Nat) : Option Word64 :=
  if offset = 0x008 then some s.status
  else if offset = 0x010 then some s.einfo
  else if offset = 0x018 then some (s.gen.mti.setWidth 64)
  else if offset = 0x040 then some s.pSeed
  else if offset = 0x048 then some s.pFreq
  else if offset = 0x050 then some (s.pOct.signExtend 64)
  else if 0x060 ≤ offset ∧ offset < 0x080 then fourRegs s.pOff 0x060 offset
  else if 0x080 ≤ offset ∧ offset < 0x0A0 then fourRegs s.pScl 0x080 offset
  else if offset = 0x0C0 then some s.sSeed
  else if offset = 0x0C8 then some (BitVec.ofNat 64 Config.sFreq)
  else if offset = 0x0D0 then some (s.sOct.signExtend 64)
  else if 0x0E0 ≤ offset ∧ offset < 0x100 then fourRegs s.sOff 0x0E0 offset
  else if 0x100 ≤ offset ∧ offset < 0x120 then fourRegs s.sScl 0x100 offset
  else if 0x200 ≤ offset ∧ offset < 0x280 then s.r[(offset - 0x200) / 8]?
  else none

/-- R61, R68: an access below 0x1000 is of 8 bytes and aligned. -/
def registerAccess (offset size : Nat) : Bool := decide (offset < 0x1000) && size == 8 && offset % 8 == 0

/-- R64, R68: an access to the BUF window is of 1, 2, 4 or 8 bytes and aligned to its size. -/
def windowAccess (offset size : Nat) : Bool :=
  decide (0x1000 ≤ offset) && (size == 1 || size == 2 || size == 4 || size == 8) && offset % size == 0

/-- R28: what `EINFO` records of a refused access. -/
def busInfo (offset : BitVec 13) (isWrite : Bool) : Word64 :=
  (0 : BitVec 31) ++ bitOf isWrite ++ offset.setWidth 32

/-- R62, R64, R69: what a host read returns; `none` where it is refused (R68). -/
def State.hostRead (s : State) (offset size : Nat) : Option Word64 :=
  if registerAccess offset size then s.readRegister offset
  else if windowAccess offset size then some (BitVec.ofNat 64 (s.memRead (offset - 0x1000) size))
  else none

/-- R62 to R64: what a host write does; `none` where it is refused (R68). -/
def State.hostWrite (s : State) (offset size : Nat) (value : Word64) : Option Result :=
  if registerAccess offset size then
    if offset = 0x000 then some (issue value s)
    else if 0x200 ≤ offset ∧ offset < 0x280 then
      some (.next (s.setReg (Fin.ofNat 16 ((offset - 0x200) / 8)) value))
    else none
  else if windowAccess offset size then some (.next (s.memWrite (offset - 0x1000) size value.toNat))
  else none

/-- One access at the host port. A refused read returns 0, a refused write changes nothing, and both latch `ERR_BUS`
(R68, R306). -/
def hostAccess (a : HostAccess) (s : State) : Result :=
  match a with
  | .read offset size =>
    match s.hostRead offset.toNat size with
    | some v => .next { s with rdata := v }
    | none => .next ({ s with rdata := 0 }.latch .bus (busInfo offset false))
  | .write offset size value =>
    match s.hostWrite offset.toNat size value with
    | some result => result
    | none => .next (s.latch .bus (busInfo offset true))
  | .reset => .next { State.resetAt (s.epoch + 1) with port := s.port, rdata := s.rdata }

end Sys2Proof.Machine
end

