-- ==== Sys2Proof/Machine/Step.lean ====
section
/-! DEFINITION. One step of the machine: the next access of the one host port, taken to its end (R20, R72). -/

namespace Sys2Proof.Machine

/-- The state once the port has taken its next access. -/
def State.takeAccess (s : State) : State := { s with port := s.port.tail }

/-- The port takes the host's next access; while there is none the machine waits (R20, R341, log 4). -/
def step (s : State) : Host.Outcome State Fault Refusal :=
  match s.port with
  | [] => .next s
  | a :: _ => hostAccess a s.takeAccess

/-- The host writes the command to `CMD` next: the write stands before every access that still waits (R63, log 5). -/
def State.withFetchWord (s : State) (nbits w : Nat) : State :=
  { s with port := .write 0x000 8 (BitVec.ofNat 64 (w % 2 ^ nbits)) :: s.port }

end Sys2Proof.Machine
end

