-- ==== Sys2Proof/Safety.lean ====
section
/-! DEFINITION. The terms that statements use: what a good state is, and the states that a command leaves when it completes and
when it raises an error. -/

namespace Sys2Proof.Machine

/-- The registers and the buffer are as the spec says they always are: `BUF` in its one form and within 0..4095, the cursor in
0..312 (R25), `P_FREQ` in 1..4096 (R29), no error code above 7 (R301), and `EINFO` 0 while no error is latched (R28). -/
def State.wf (s : State) : Prop :=
  Memory.wf s.buf = true ∧ s.gen.mti.toNat ≤ 312 ∧ 1 ≤ s.freq ∧ s.freq ≤ Config.pFreqMax ∧
    s.ecode.toNat ≤ 7 ∧ (s.ecode = 0 → s.einfo = 0)

/-- The invariants of the Perlin tables while `PBUILT = 1` (R30): lattice values in [0, 1), each axis a permutation of
`0 .. F − 1`, and its second half a copy of the first. -/
def State.perlinTablesOk (s : State) : Prop :=
  s.pbuilt = true →
    (∀ k < s.freq, fLe fZero (s.valAt k) = true ∧ fLt (s.valAt k) fOne = true) ∧
    ∀ a < 4, ((List.range s.freq).map (s.permAt a)).Perm (List.range s.freq) ∧
      ∀ k < s.freq, s.permAt a (s.freq + k) = s.permAt a k

/-- The invariants of the simplex tables while `SBUILT = 1` (R34). -/
def State.simplexTablesOk (s : State) : Prop :=
  s.sbuilt = true →
    (∀ k < 256, s.spAt (256 + k) = s.spAt k) ∧
    ∀ k < 512, s.sm12At k = s.spAt k % 12 ∧ s.sm32At k = s.spAt k % 32

/-- `s` with an error of command `i` latched and nothing else changed (R303, R315). -/
def State.withError (s : State) (e : Err) (i : Instr) : State :=
  { s with ecode := e.code, einfo := (encode i).setWidth 64 }

/-- `s` after one draw from the main generator, with `v` in `rd` and nothing else changed (R150). -/
def State.drawnInto (s : State) (rd : Reg) (v : Word64) : State :=
  { s with gen := (nextWord s.gen).2, r := s.r.set rd v }

/-- `s` after one draw from the main generator, with the pair at `rd` holding `lo` and `hi` and nothing else changed (R172). -/
def State.drawnIntoPair (s : State) (rd : Reg) (lo hi : Word64) : State :=
  { s with gen := (nextWord s.gen).2, r := (s.r.set rd lo).set (rd + 1 : Reg) hi }

/-- `s` with `v` in `rd` and nothing else changed. -/
def State.onlyReg (s : State) (rd : Reg) (v : Word64) : State := { s with r := s.r.set rd v }

/-- The word that the next draw gives (R124). -/
def State.nextDraw (s : State) : Word64 := (nextWord s.gen).1

/-- The commands that draw from the main generator or save it, `ISPRIME` apart (R307). -/
def needsSeed : Instr → Bool
  | .save | .nbytes _ | .nbytesz _ | .nu64 _ | .nu32 _ | .ni64 _ | .ni32 _
  | .nu64r _ _ _ | .nu32r _ _ _ | .ni64r _ _ _ | .ni32r _ _ _
  | .nu64m _ _ | .nu32m _ _ | .ni64m _ _ | .ni32m _ _
  | .nd _ | .ndm _ _ | .ndr _ _ _ | .ntd _ | .ntdm _ _ | .ntdr _ _ _
  | .nh _ | .nhm _ _ | .nhr _ _ _ | .nth _ | .nthm _ _ | .nthr _ _ _ | .witness _ => true
  | .nop | .clrerr | .seed _ | .seeda _ | .restore | .isprime _ _ _
  | .pseed _ | .pfreq _ | .poct _ | .poff _ _ | .pscl _ _ | .pbuild
  | .pn1 _ _ | .pn2 _ _ | .pn3 _ _ | .pn4 _ _
  | .sseed _ | .sfreq _ | .soct _ | .soff _ _ | .sscl _ _ | .sbuild
  | .sn2 _ _ | .sn3 _ _ | .sn4 _ _ | .smip _ _ => false

/-- The registers a command may write (R21): `rd`, for a fixed-point result also `rd+1`. -/
def destRegs : Instr → List Reg
  | .nu64 rd | .nu32 rd | .ni64 rd | .ni32 rd
  | .nu64r rd _ _ | .nu32r rd _ _ | .ni64r rd _ _ | .ni32r rd _ _
  | .nu64m rd _ | .nu32m rd _ | .ni64m rd _ | .ni32m rd _
  | .nd rd | .ndm rd _ | .ndr rd _ _ | .ntd rd | .ntdm rd _ | .ntdr rd _ _
  | .witness rd | .isprime rd _ _
  | .pn1 rd _ | .pn2 rd _ | .pn3 rd _ | .pn4 rd _
  | .sn2 rd _ | .sn3 rd _ | .sn4 rd _ | .smip rd _ => [rd]
  | .nh rd | .nhm rd _ | .nhr rd _ _ | .nth rd | .nthm rd _ | .nthr rd _ _ => [rd, rd + 1]
  | .nop | .clrerr | .seed _ | .seeda _ | .save | .restore | .nbytes _ | .nbytesz _
  | .pseed _ | .pfreq _ | .poct _ | .poff _ _ | .pscl _ _ | .pbuild
  | .sseed _ | .sfreq _ | .soct _ | .soff _ _ | .sscl _ _ | .sbuild => []

/-- How many bytes of `BUF`, counted from byte 0, a command may write (R348). -/
def storedBytes (i : Instr) (s : State) : Nat :=
  match i with
  | .save => 2540
  | .nbytes ra => (s.reg ra).toNat
  | .nbytesz ra => (s.reg ra).toNat + 1
  | _ => 0

/-- The commands that set `SEEDED` (R26). -/
def seedsGenerator : Instr → Bool
  | .seed _ | .seeda _ | .restore => true
  | _ => false

/-- The commands of the Perlin generator that write its configuration or its tables (R29, R30). -/
def configuresPerlin : Instr → Bool
  | .pseed _ | .pfreq _ | .poct _ | .poff _ _ | .pscl _ _ | .pbuild => true
  | _ => false

/-- The commands of the simplex generator that write its configuration or its tables (R33, R34). -/
def configuresSimplex : Instr → Bool
  | .sseed _ | .soct _ | .soff _ _ | .sscl _ _ | .sbuild => true
  | _ => false

/-- Everything that belongs to the Perlin generator is the same (R29, R30, R32). -/
def State.samePerlin (s t : State) : Prop :=
  t.pSeed = s.pSeed ∧ t.pFreq = s.pFreq ∧ t.pOct = s.pOct ∧ t.pOff = s.pOff ∧ t.pScl = s.pScl ∧
    t.val = s.val ∧ t.perm = s.perm ∧ t.pbuilt = s.pbuilt

/-- Everything that belongs to the simplex generator is the same (R33, R34, R35). -/
def State.sameSimplex (s t : State) : Prop :=
  t.sSeed = s.sSeed ∧ t.sOct = s.sOct ∧ t.sOff = s.sOff ∧ t.sScl = s.sScl ∧
    t.sp = s.sp ∧ t.sm12 = s.sm12 ∧ t.sm32 = s.sm32 ∧ t.sbuilt = s.sbuilt

/-- The encoding that a command rule names: the format of the opcode, and a word of that shape (R91, R95). -/
def hasEncoding (i : Instr) (op : BitVec 8) (fmt : Format) : Prop :=
  formatOf op = some fmt ∧ encode i &&& fmt.mask = op.setWidth 32 <<< 24

/-- The reserved offsets of R70, among the multiples of 8 below 0x1000. -/
def reservedOffset (o : Nat) : Prop :=
  (0x020 ≤ o ∧ o ≤ 0x038) ∨ o = 0x058 ∨ (0x0A0 ≤ o ∧ o ≤ 0x0B8) ∨ o = 0x0D8 ∨
    (0x120 ≤ o ∧ o ≤ 0x1F8) ∨ (0x280 ≤ o ∧ o ≤ 0xFF8)

/-- The access of `size` bytes at offset `o` has a shape that R68 refuses: below 0x1000 not 8 bytes, in the window not 1, 2,
4 or 8 bytes, or not aligned to its size. -/
def badShape (o size : Nat) : Prop :=
  (o < 0x1000 ∧ size ≠ 8) ∨ (0x1000 ≤ o ∧ size ≠ 1 ∧ size ≠ 2 ∧ size ≠ 4 ∧ size ≠ 8) ∨ o % size ≠ 0

/-- The reads that R68 refuses. -/
def refusedRead (o size : Nat) : Prop :=
  badShape o size ∨ reservedOffset o ∨ o = 0x000

/-- The writes that R68 refuses: below 0x1000 only `CMD` and the operand registers may be written (R61). -/
def refusedWrite (o size : Nat) : Prop :=
  badShape o size ∨ (o < 0x1000 ∧ o ≠ 0x000 ∧ ¬(0x200 ≤ o ∧ o < 0x280))

/-- `n` is what the 32-bit mapping of R159 gives for the word `w` and the range from `lo` to `hi`. -/
def mapsTo32 (w : Word64) (lo hi n : Int) : Prop :=
  ifloor (fMul (.fin false ((w >>> 11).toNat * 2 ^ 1021)) (.fin false ((hi - lo + 1).toNat * 2 ^ 1074))) = some (n - lo) ∧
    lo ≤ n ∧ n ≤ hi

/-- The commands that may change `MT` or `MTI`: the seedings and those that draw (R24, R25). -/
def movesGenerator : Instr → Bool
  | .seed _ | .seeda _ | .restore | .isprime _ _ _ => true
  | .save => false
  | i => needsSeed i

/-- The `k`-th word drawn from `g`, counted from 0 (R14). -/
def wordDrawn (g : Gen) (k : Nat) : Word64 := (drawWords (k + 1) g).1.getD k 0

/-- The magnitudes of finite binary64 numbers, in units of 2^-1074 (R12). -/
def representable (mag : Nat) : Prop := ∃ m e : Nat, m < 2 ^ 53 ∧ mag = m * 2 ^ e ∧ mag < fOverflow

/-- The coordinates of octave `k`: doubled `k` times (R223). -/
def octaveCoords (c : List F64) (k : Nat) : List F64 := repeatTimes (List.map fun v => fMul v fTwo) k c

/-- Every coordinate has a lattice cell of the Perlin generator (R222). -/
def perlinEvaluable (c : List F64) : Prop := ∀ v ∈ c, fFinite v = true

/-- Every skewed coordinate has a lattice cell of the simplex generator (R222, R274 to R276). -/
def simplexEvaluable (skewFactor : Word64) (c : List F64) : Prop :=
  ∀ v ∈ c, fFinite (fAdd v (fMul (sumLeft c) (fOfBits skewFactor))) = true

/-- The octave amplitude of octave `k`: 2^-k, and 0 once that underflows (R223). -/
def octaveAmp (k : Nat) : F64 := .fin false (2 ^ 1074 / 2 ^ k)

/-- The scale of iteration `k` of `SMIP` (R280). -/
def mipScale (size : F64) (k : Nat) : F64 := repeatTimes (fun v => fMul v fHalf) k size

end Sys2Proof.Machine
end

