-- ==== Sys2Proof/Certificates/Slice0/Obligations.lean ====
section
/-! DEFINITION. The statements about IGE-RNC, for the provers. Each docstring names the rule or the section of spec/ that the
statement formalises. -/

open Sys2Proof Sys2Proof.Machine

/-! Encoding (30_encoding.md). -/

/-- Decoding the word of a command that an encoding can carry gives the command back, with every operand (30_encoding.md
section 2). -/
def Obligations.DecodeOfEncodeIsTheCommand : Prop :=
  ∀ i : Instr, i.wellFormed = true → decode (encode i) = .ok i

/-- A word that decodes is the word of the one command it decodes to, and that command keeps R92 (30_encoding.md section 3). -/
def Obligations.DecodedWordIsTheCommandsWord : Prop :=
  ∀ (w : Word32) (i : Instr), decode w = .ok i → encode i = w ∧ i.wellFormed = true

/-- R91: the masks of the formats; the mask of a format decides whether a word has its shape, and a word with the opcode but not the
shape is illegal. -/
def Obligations.MaskDecidesTheShape : Prop :=
  (Format.z.mask = 0xFFFFFFFF ∧ Format.a.mask = 0xFFF0FFFF ∧ Format.d.mask = 0xFF0FFFFF ∧ Format.da.mask = 0xFF00FFFF ∧
    Format.dab.mask = 0xFF000FFF ∧ Format.ai.mask = 0xFFF0FFFC ∧ Format.dai.mask = 0xFF00F000) ∧
  ∀ (fmt : Format) (w : Word32) (o : BitVec 8),
    (w &&& fmt.mask = o.setWidth 32 <<< 24 ↔ (splitWord w).op = o ∧ fmt.unusedZero (splitWord w) = true) ∧
    (formatOf o = some fmt → (splitWord w).op = o → w &&& fmt.mask ≠ o.setWidth 32 <<< 24 →
      decode w = .error .unusedBits)

/-- R97: the reserved opcodes are exactly those that the rule lists. -/
def Obligations.ReservedOpcodesAreRejected : Prop :=
  ∀ w : Word32,
    let op := (w >>> 24).toNat
    (decode w = .error .reservedOpcode ↔
      (0x02 ≤ op ∧ op ≤ 0x0F) ∨ (0x16 ≤ op ∧ op ≤ 0x1F) ∨ (0x2C ≤ op ∧ op ≤ 0x2F) ∨ op = 0x33 ∨ op = 0x37 ∨
        op = 0x3B ∨ op = 0x3F ∨ (0x42 ≤ op ∧ op ≤ 0x4F) ∨ op = 0x56 ∨ op = 0x57 ∨ (0x5C ≤ op ∧ op ≤ 0x5F) ∨
        op = 0x66 ∨ op = 0x67 ∨ op = 0x68 ∨ (0x6D ≤ op ∧ op ≤ 0xFF))

/-- R92: a pair is two registers, low half first, and a group is consecutive registers; where a pair or a group would reach past
`r15` the word is illegal. -/
def Obligations.PairsAndGroupsStayBelowR16 : Prop :=
  (∀ (s : State) (k : Nat) (h : k + 1 < 16),
    s.regQ (Fin.ofNat 16 k) = s.r[k + 1].toInt * 2 ^ 64 + (s.r[k].toNat : Int)) ∧
  (∀ (s : State) (k n j : Nat) (h : k + n ≤ 16) (hj : j < n),
    (s.group (Fin.ofNat 16 k) n)[j]? = some (fOfBits s.r[k + j])) ∧
  (∀ rd ra rb : Reg,
    ((Instr.nh rd).wellFormed = true ↔ rd.val ≤ 14) ∧ ((Instr.nth rd).wellFormed = true ↔ rd.val ≤ 14) ∧
    ((Instr.nhm rd ra).wellFormed = true ↔ rd.val ≤ 14 ∧ ra.val ≤ 14) ∧
    ((Instr.nthm rd ra).wellFormed = true ↔ rd.val ≤ 14 ∧ ra.val ≤ 14) ∧
    ((Instr.nhr rd ra rb).wellFormed = true ↔ rd.val ≤ 14 ∧ ra.val ≤ 14 ∧ rb.val ≤ 14) ∧
    ((Instr.nthr rd ra rb).wellFormed = true ↔ rd.val ≤ 14 ∧ ra.val ≤ 14 ∧ rb.val ≤ 14) ∧
    (∀ q ∈ [(Instr.pn1 rd ra, 1), (.pn2 rd ra, 2), (.pn3 rd ra, 3), (.pn4 rd ra, 4),
        (.sn2 rd ra, 2), (.sn3 rd ra, 3), (.sn4 rd ra, 4), (.smip rd ra, 4)],
      (q.1.wellFormed = true ↔ ra.val + q.2 - 1 ≤ 15))) ∧
  ∀ i : Instr, i.wellFormed = false → decode (encode i) = .error .pastR15

/-- R305: a `CMD` write that is no command latches `ERR_ILLEGAL` with the low half of the value, and changes nothing else. A
value is a command exactly when its upper half is 0 and its lower half is the word of a command that keeps R92. -/
def Obligations.IllegalValuesLatchIllegal : Prop :=
  ∀ (v : Word64) (s : State),
    (∀ i, decodeCommand v = .ok i ↔ v = (encode i).setWidth 64 ∧ i.wellFormed = true) ∧
    (s.ecode = 0 → (∀ i, i.wellFormed = true → v ≠ (encode i).setWidth 64) →
      hostAccess (.write 0x000 8 v) s = .next { s with ecode := 1, einfo := BitVec.ofNat 64 (v.toNat % 2 ^ 32) })

/-- Words of the spec's own examples decode to the commands they stand for, and the two pseudo-commands expand to their words
(30_encoding.md section 4, 95_test_vectors.md V22): a sanity statement. -/
def Obligations.WordsOfTheSpecDecode : Prop :=
  decode 0x00000000 = .ok .nop ∧ decode 0x01000000 = .ok .clrerr ∧ decode 0x100F0000 = .ok (.seed 15) ∧
  decode 0x24201000 = .ok (.nu64r 2 0 1) ∧ decode 0x27FED000 = .ok (.ni32r 15 14 13) ∧
  decode 0x3AECA000 = .ok (.nhr 14 12 10) ∧ decode 0x41100FFF = .ok (.isprime 1 0 4095) ∧
  decode 0x53030001 = .ok (.poff 3 .y) ∧ decode 0x64090003 = .ok (.sscl 9 .t) ∧
  decode 0x5B0C0000 = .ok (.pn4 0 12) ∧ decode 0x6C580000 = .ok (.smip 5 8) ∧
  decode 0x41100005 = .ok (pseudoIsprime 1 0) ∧
  ∀ rd ra : Reg, pseudoNext rd = .nu64 rd ∧ pseudoIsprime rd ra = .isprime rd ra 5

/-! The host port (20_memory.md). -/

/-- A write of a command's word to `CMD`, with no error latched, runs exactly that command on the state whose port has taken the
write, and is then over; with no access waiting the machine waits (20_memory.md section 1, 10_state.md section 1). That a host
access is taken from a list, and that an idle step changes nothing, are the model's choices (log 4, log 5). -/
def Obligations.StepRunsTheDecodedCommand : Prop :=
  (∀ (s : State) (v : Word64) (rest : List HostAccess) (i : Instr),
    s.port = .write 0x000 8 v :: rest → s.ecode = 0 → decodeCommand v = .ok i →
      step s = exec i { s with port := rest }) ∧
  (∀ (s : State) (i : Instr), s.ecode = 0 → i.wellFormed = true →
    step (s.withFetchWord 32 (encode i).toNat) = exec i s) ∧
  (∀ (s : State) (a : HostAccess) (rest : List HostAccess), s.port = a :: rest →
    step s = hostAccess a { s with port := rest }) ∧
  ∀ s : State, s.port = [] → step s = .next s

/-- R61, R62: what a host read of each register returns, `STATUS` with its fields in their places, which registers may be written
and what a write of one does, and that nothing else is mapped. A legal read changes only what the model itself keeps of it (log 4). -/
def Obligations.HostSeesTheRegisterMap : Prop :=
  ∀ s : State,
    (s.hostRead 0x008 8 = some s.status ∧
      s.status.toNat = s.seeded.toNat + 2 * s.pbuilt.toNat + 4 * s.sbuilt.toNat
        + 8 * (if s.ecode = 0 then 0 else 1) + 256 * s.ecode.toNat) ∧
    s.hostRead 0x010 8 = some s.einfo ∧ s.hostRead 0x018 8 = some (s.gen.mti.setWidth 64) ∧
    s.hostRead 0x040 8 = some s.pSeed ∧ s.hostRead 0x048 8 = some s.pFreq ∧
    s.hostRead 0x050 8 = some (BitVec.ofInt 64 s.pOct.toInt) ∧
    s.hostRead 0x0C0 8 = some s.sSeed ∧ s.hostRead 0x0C8 8 = some 256 ∧
    s.hostRead 0x0D0 8 = some (BitVec.ofInt 64 s.sOct.toInt) ∧
    (∀ a : Fin 4, s.hostRead (0x060 + 8 * a.val) 8 = some s.pOff[a] ∧ s.hostRead (0x080 + 8 * a.val) 8 = some s.pScl[a] ∧
      s.hostRead (0x0E0 + 8 * a.val) 8 = some s.sOff[a] ∧ s.hostRead (0x100 + 8 * a.val) 8 = some s.sScl[a]) ∧
    (∀ (k : Reg) (v : Word64), s.hostRead (0x200 + 8 * k.val) 8 = some s.r[k] ∧
      s.hostWrite (0x200 + 8 * k.val) 8 v = some (.next { s with r := s.r.set k v })) ∧
    (∀ a < 4096, s.hostRead (0x1000 + a) 1 = some ((s.bufRead a).setWidth 64) ∧
      ∀ v : Word64, s.hostWrite (0x1000 + a) 1 v = some (.next (s.memWrite a 1 v.toNat))) ∧
    s.hostRead 0x000 8 = none ∧ (∀ v : Word64, s.hostWrite 0x000 8 v = some (issue v s)) ∧
    (∀ (o : Nat) (v : Word64), o < 0x1000 → o ≠ 0x000 → ¬(0x200 ≤ o ∧ o < 0x280) → s.hostWrite o 8 v = none) ∧
    (∀ o : Nat, reservedOffset o → s.hostRead o 8 = none) ∧
    ∀ (o : BitVec 13) (size : Nat) (v : Word64), s.hostRead o.toNat size = some v →
      hostAccess (.read o size) s = .next { s with rdata := v }

/-- R68: which accesses are refused, and what a refused access does: a read returns 0, a write changes nothing, and
`ERR_BUS` is latched with the offset and the direction, unless an older error stands in the latch. -/
def Obligations.RefusedAccessesLatchBus : Prop :=
  ∀ (s : State) (o : BitVec 13) (size : Nat) (v : Word64),
    (s.hostRead o.toNat size = none ↔ refusedRead o.toNat size) ∧
    (s.hostWrite o.toNat size v = none ↔ refusedWrite o.toNat size) ∧
    (refusedRead o.toNat size → hostAccess (.read o size) s =
      .next (if s.ecode = 0 then { s with rdata := 0, ecode := 7, einfo := BitVec.ofNat 64 o.toNat }
        else { s with rdata := 0 })) ∧
    (refusedWrite o.toNat size → hostAccess (.write o size v) s =
      .next (if s.ecode = 0 then { s with ecode := 7, einfo := BitVec.ofNat 64 (2 ^ 32 + o.toNat) } else s))

/-- R66, R67: reading `n` bytes gives the number they spell, least significant first; writing `n` bytes puts each byte of
the value in its place and leaves every other byte as it was; and a legal host write to the window does just that, so that a later
one-byte read at any of its bytes returns that byte. -/
def Obligations.BufferIsLittleEndian : Prop :=
  (∀ (s : State) (addr n : Nat),
    s.memRead addr n = ((List.range n).map fun k => (s.bufRead (addr + k)).toNat * 2 ^ (8 * k)).sum ∧
    ∀ v : Nat,
      (∀ k < n, ((s.memWrite addr n v).bufRead (addr + k)).toNat = v / 2 ^ (8 * k) % 256) ∧
      (∀ a, a < addr ∨ addr + n ≤ a → (s.memWrite addr n v).bufRead a = s.bufRead a) ∧
      ∃ b, s.memWrite addr n v = { s with buf := b }) ∧
  ∀ (s : State) (o : BitVec 13) (size : Nat) (v : Word64),
    0x1000 ≤ o.toNat → size = 1 ∨ size = 2 ∨ size = 4 ∨ size = 8 → o.toNat % size = 0 →
      s.hostRead o.toNat size = some (BitVec.ofNat 64 (s.memRead (o.toNat - 0x1000) size)) ∧
      hostAccess (.write o size v) s = .next (s.memWrite (o.toNat - 0x1000) size v.toNat) ∧
      ∀ k < size, (s.memWrite (o.toNat - 0x1000) size v.toNat).hostRead (o.toNat + k) 1 =
        some (BitVec.ofNat 64 (v.toNat / 2 ^ (8 * k) % 256))

/-! Reset (70_reset_and_hazards.md). -/

/-- R41: reset gives every piece of state the value of the table, from whatever state; what the table leaves unspecified is not
stated. The first reset state is one of these. -/
def Obligations.ResetGivesTheSpecifiedValues : Prop :=
  let good := fun t : State =>
    (∀ k : Reg, t.r[k] = 0) ∧ t.gen.mti = 312 ∧ t.status = 0 ∧ t.ecode = 0 ∧
    t.seeded = false ∧ t.pbuilt = false ∧ t.sbuilt = false ∧ t.einfo = 0 ∧
    t.pSeed = 0 ∧ t.sSeed = 0 ∧ t.pFreq = 256 ∧ t.hostRead 0x0C8 8 = some 256 ∧ t.pOct = 1 ∧ t.sOct = 1 ∧
    ∀ a : Fin 4, t.pOff[a] = 0 ∧ t.sOff[a] = 0 ∧ t.pScl[a] = 0x3FF0000000000000 ∧ t.sScl[a] = 0x3FF0000000000000
  good State.reset ∧ ∀ s : State, ∃ t, hostAccess .reset s = .next t ∧ good t

/-! Errors (60_exceptions.md). -/

/-- R302: while an error is latched, no host access but the `CLRERR` word and reset changes `ECODE` or `EINFO`. -/
def Obligations.FirstErrorWins : Prop :=
  ∀ (s t : State) (a : HostAccess),
    s.ecode ≠ 0 → a ≠ .reset → a ≠ .write 0x000 8 0x0000000001000000 → hostAccess a s = .next t →
      t.ecode = s.ecode ∧ t.einfo = s.einfo

/-- R304: while an error is latched, a write of anything but the `CLRERR` word to `CMD` does nothing at all, and the operand
registers, the buffer and the read-only registers are read and written as usual. -/
def Obligations.LatchedErrorDropsCommands : Prop :=
  ∀ s : State, s.ecode ≠ 0 →
    (∀ v : Word64, v ≠ 0x0000000001000000 → hostAccess (.write 0x000 8 v) s = .next s) ∧
    hostAccess (.write 0x000 8 0x0000000001000000) s = .next { s with ecode := 0, einfo := 0 } ∧
    (∀ (o : BitVec 13) (size : Nat) (v : Word64), s.hostRead o.toNat size = some v →
      hostAccess (.read o size) s = .next { s with rdata := v }) ∧
    (∀ (o : BitVec 13) (size : Nat), o.toNat ≠ 0x008 → o.toNat ≠ 0x010 →
      s.hostRead o.toNat size = ({ s with ecode := 0, einfo := 0 } : State).hostRead o.toNat size) ∧
    (∀ (k : Reg) (v : Word64),
      hostAccess (.write (BitVec.ofNat 13 (0x200 + 8 * k.val)) 8 v) s = .next { s with r := s.r.set k v }) ∧
    ∀ (o : BitVec 13) (size : Nat) (v : Word64), windowAccess o.toNat size = true →
      hostAccess (.write o size v) s = .next (s.memWrite (o.toNat - 0x1000) size v.toNat)

/-- R303, with the codes of R301: where a command ends with an error, the state differs from the one before in `ECODE` and
`EINFO` alone, which hold the code of an error and the command word, the low half of the value written to `CMD`. -/
def Obligations.ErrorsChangeOnlyTheLatch : Prop :=
  (∀ (v : Word64) (s t : State), s.ecode = 0 → hostAccess (.write 0x000 8 v) s = .next t → t.ecode ≠ 0 →
    ∃ e : Err, t = { s with ecode := e.code, einfo := BitVec.ofNat 64 (v.toNat % 2 ^ 32) }) ∧
  (∀ (i : Instr) (s t : State), s.ecode = 0 → exec i s = .next t → t.ecode ≠ 0 →
    ∃ e : Err, t = { s with ecode := e.code, einfo := BitVec.ofNat 64 (encode i).toNat }) ∧
  (∀ (s : State) (e : Err) (i : Instr), s.ecode = 0 →
    s.raise e i = { s with ecode := e.code, einfo := BitVec.ofNat 64 (encode i).toNat }) ∧
  Err.code .illegal = 1 ∧ Err.code .unseeded = 2 ∧ Err.code .config = 3 ∧ Err.code .format = 4 ∧
  Err.code .notBuilt = 5 ∧ Err.code .operand = 6 ∧ Err.code .bus = 7

/-- R316, R317: `CLRERR` clears the latch and nothing else, latched or not; `NOP` does nothing. With the latch set `CLRERR` alone runs,
and `NOP` is dropped like any command. A `CLRERR` word with a non-zero upper half is not the `CLRERR` word. -/
def Obligations.ClrerrAndNop : Prop :=
  encode .clrerr = 0x01000000 ∧ encode .nop = 0x00000000 ∧ formatOf 0x01 = some .z ∧ formatOf 0x00 = some .z ∧
  (∀ s : State, exec .clrerr s = .next { s with ecode := 0, einfo := 0 } ∧ exec .nop s = .next s) ∧
  (∀ s : State, s.ecode ≠ 0 →
    hostAccess (.write 0x000 8 0x0000000001000000) s = .next { s with ecode := 0, einfo := 0 } ∧
    ∀ v : Word64, v ≠ 0x0000000001000000 → hostAccess (.write 0x000 8 v) s = .next s) ∧
  ∀ (s : State) (hi : BitVec 32), hi ≠ 0 →
    (s.ecode ≠ 0 → hostAccess (.write 0x000 8 (hi ++ 0x01000000#32)) s = .next s) ∧
    (s.ecode = 0 → hostAccess (.write 0x000 8 (hi ++ 0x01000000#32)) s =
      .next { s with ecode := 1, einfo := 0x01000000 })

/-- R307: before the first seeding every command that needs the main generator raises `ERR_UNSEEDED`, before its operand checks; the
Perlin and simplex commands never do. -/
def Obligations.UnseededCommandsRaise : Prop :=
  (∀ (i : Instr) (s : State), needsSeed i = true → i.wellFormed = true → s.seeded = false →
    exec i s = .next (s.raise .unseeded i)) ∧
  (∀ (rd ra : Reg) (rounds : BitVec 12) (s : State), s.seeded = false → rounds ≠ 0 →
    65535 < s.regS ra → (∀ p : Nat, p.Prime → p ≤ 65535 → ¬ (p : Int) ∣ s.regS ra) →
      exec (.isprime rd ra rounds) s = .next (s.raise .unseeded (.isprime rd ra rounds))) ∧
  ∀ (i : Instr) (s t : State), 0x50 ≤ (i.fields.op).toNat → s.ecode = 0 → exec i s = .next t → t.ecode ≠ 2

/-- R310: before the first build of a generator its evaluation commands raise `ERR_NOTBUILT`, whatever their operands hold; after it
they never do, and nothing but reset takes the generator's flag back. -/
def Obligations.UnbuiltCommandsRaise : Prop :=
  (∀ (s t : State) (a : HostAccess), a ≠ .reset → hostAccess a s = .next t →
    (s.pbuilt = true → t.pbuilt = true) ∧ (s.sbuilt = true → t.sbuilt = true)) ∧
  ∀ (rd ra : Reg) (s : State),
    (∀ i ∈ [Instr.pn1 rd ra, .pn2 rd ra, .pn3 rd ra, .pn4 rd ra], s.pbuilt = true → s.ecode = 0 →
      ∀ t, exec i s = .next t → t.ecode ≠ 5) ∧
    (∀ i ∈ [Instr.sn2 rd ra, .sn3 rd ra, .sn4 rd ra, .smip rd ra], s.sbuilt = true → s.ecode = 0 →
      ∀ t, exec i s = .next t → t.ecode ≠ 5) ∧
    (∀ i ∈ [Instr.pn1 rd ra, .pn2 rd ra, .pn3 rd ra, .pn4 rd ra], i.wellFormed = true → s.pbuilt = false →
      exec i s = .next (s.raise .notBuilt i)) ∧
    (∀ i ∈ [Instr.sn2 rd ra, .sn3 rd ra, .sn4 rd ra, .smip rd ra], i.wellFormed = true → s.sbuilt = false →
      exec i s = .next (s.raise .notBuilt i))

/-- Every command, and every host access, ends in a next state: the machine has no stop (70_reset_and_hazards.md section 3). -/
def Obligations.EveryStepAnswersNext : Prop :=
  (∀ (i : Instr) (s : State), ∃ t, exec i s = .next t) ∧ ∀ s : State, ∃ t, step s = .next t

/-! The word generator (40_wordgen.md). -/

/-- R120, R121: `SEED` runs the single-seed recurrence, sets the cursor to 312 and sets `SEEDED`. -/
def Obligations.SeedRunsTheRecurrence : Prop :=
  (∀ ra : Reg, hasEncoding (.seed ra) 0x10 .a) ∧
  (∀ (ra : Reg) (s : State), exec (.seed ra) s = .next { s with gen := initState (s.reg ra), seeded := true }) ∧
  (∀ v : Word64, (initState v).mti = 312 ∧ (initState v).mt[0] = v ∧
    ∀ (i : Nat) (h : i + 1 < 312), (initState v).mt[i + 1] =
      Config.gen.initMul * ((initState v).mt[i] ^^^ ((initState v).mt[i] >>> 62)) + BitVec.ofNat 64 (i + 1)) ∧
  (initState 0).mt[1] = 1 ∧
  (initState 42).mt[1] = 0x7D720F6E9086DD63 ∧ (initState 42).mt[311] = 0x46157C29A673A537

/-- `SEEDA` with a key of 1 to 512 words seeds from the words in `BUF`, and raises `ERR_CONFIG` on any other length. The loops start
from the register of the fixed seed with `i` at 1 and `j` at 0; the first runs as often as the register or the key is long, whichever
is more, the second 311 times; at the end the forced top word stands in word 0 and the cursor is 312. Each iteration replaces one word,
and at the last index copies it to word 0 and starts over at 1 (40_wordgen.md section 1). -/
def Obligations.SeedaSeedsFromTheKey : Prop :=
  (∀ ra : Reg, hasEncoding (.seeda ra) 0x11 .a) ∧
  (∀ (ra : Reg) (s : State),
    let n := (s.reg ra).toNat
    (1 ≤ n → n ≤ 512 → exec (.seeda ra) s =
      .next { s with
        gen := arrayState ((List.range n).map fun j => BitVec.ofNat 64 (s.memRead (8 * j) 8))
        seeded := true }) ∧
    (n = 0 ∨ 512 < n → exec (.seeda ra) s = .next (s.raise .config (.seeda ra)))) ∧
  (∀ key : List Word64,
    let mid := (arrayMix1 key)^[max 312 key.length] { mt := (initState Config.gen.arrSeed).mt, i := 1, j := 0 }
    let done := arrayMix2^[311] mid
    arrayState key = { mt := done.mt.set 0 Config.gen.arrTop, mti := 312 }) ∧
  ∀ (key : List Word64) (l : ArrayLoop) (i : Nat) (h : i + 1 < 312), l.i.val = i + 1 →
    let p := l.mt[i] ^^^ (l.mt[i] >>> 62)
    let first := (l.mt[i + 1] ^^^ (p * Config.gen.arrMul1)) + key.getD l.j 0 + BitVec.ofNat 64 l.j
    let second := (l.mt[i + 1] ^^^ (p * Config.gen.arrMul2)) - BitVec.ofNat 64 (i + 1)
    let j' := if key.length ≤ l.j + 1 then 0 else l.j + 1
    (i + 1 < 311 →
      arrayMix1 key l = { mt := l.mt.set (i + 1) first, i := Fin.ofNat 312 (i + 2), j := j' } ∧
      arrayMix2 l = { mt := l.mt.set (i + 1) second, i := Fin.ofNat 312 (i + 2), j := l.j }) ∧
    (i + 1 = 311 →
      arrayMix1 key l = { mt := (l.mt.set (i + 1) first).set 0 first, i := 1, j := j' } ∧
      arrayMix2 l = { mt := (l.mt.set (i + 1) second).set 0 second, i := 1, j := l.j })

/-- R123, R124: the regeneration is in place and in ascending order, so that from word 156 on the far word is a new one, and the last
word's successor is the new word 0; the next-word step regenerates exactly when the register is used up, then tempers the word at the
cursor and moves the cursor on by one. -/
def Obligations.NextWordRegeneratesInPlace : Prop :=
  (∀ cur next far : Word64, twistWord cur next far =
    let x := (cur &&& Config.gen.upperMask) ||| (next &&& Config.gen.lowerMask)
    far ^^^ (x >>> 1) ^^^ (if x &&& 1 = 0 then Config.gen.mag0 else Config.gen.mag1)) ∧
  ∀ g : Gen,
    (regenerate g).mti = 0 ∧
    (∀ (i : Nat) (h : i < 156), (regenerate g).mt[i] = twistWord g.mt[i] g.mt[i + 1] g.mt[i + 156]) ∧
    (∀ (i : Nat) (h : i < 155), (regenerate g).mt[i + 156] =
      twistWord g.mt[i + 156] g.mt[i + 157] (regenerate g).mt[i]) ∧
    (regenerate g).mt[311] = twistWord g.mt[311] (regenerate g).mt[0] (regenerate g).mt[155] ∧
    (312 ≤ g.mti.toNat →
      nextWord g = (temper (regenerate g).mt[0], { mt := (regenerate g).mt, mti := 1 })) ∧
    (∀ h : g.mti.toNat < 312, nextWord g = (temper g.mt[g.mti.toNat], { mt := g.mt, mti := g.mti + 1 })) ∧
    1 ≤ (nextWord g).2.mti.toNat ∧ (nextWord g).2.mti.toNat ≤ 312

/-- R125: the four steps of the tempering, which is a bijection, with the rule's examples. -/
def Obligations.TemperIsABijection : Prop :=
  (∀ x : Word64, temper x =
    let x1 := x ^^^ ((x >>> 29) &&& Config.gen.temper1)
    let x2 := x1 ^^^ ((x1 <<< 17) &&& Config.gen.temper2)
    let x3 := x2 ^^^ ((x2 <<< 37) &&& Config.gen.temper3)
    x3 ^^^ (x3 >>> 43)) ∧
  Function.Bijective temper ∧
  temper 1 = 0x0040002000020801 ∧ temper 0x8000000000000000 = 0x8000000400100000 ∧
  temper 0xFFFFFFFFFFFFFFFF = 0x7BFEEEEFEFA1D577 ∧ temper 0x0123456789ABCDEF = 0x2254DA7001198660

/-- `NU64`, `NU32`, `NI64`, `NI32`: one word is drawn, and the register takes it whole or its low half, zero- or sign-extended
(R151, R152, R153, and 40_wordgen.md section 2 for `NU64`). -/
def Obligations.UnboundedOutputs : Prop :=
  ∀ (rd : Reg) (s : State),
    let w := s.nextDraw
    hasEncoding (.nu64 rd) 0x20 .d ∧ hasEncoding (.nu32 rd) 0x21 .d ∧
    hasEncoding (.ni64 rd) 0x22 .d ∧ hasEncoding (.ni32 rd) 0x23 .d ∧
    (s.seeded = true →
      exec (.nu64 rd) s = .next (s.drawnInto rd w) ∧
      exec (.nu32 rd) s = .next (s.drawnInto rd (BitVec.ofNat 64 (w.toNat % 2 ^ 32))) ∧
      exec (.ni64 rd) s = .next (s.drawnInto rd w) ∧
      exec (.ni32 rd) s = .next (s.drawnInto rd
        (if w.getLsbD 31 then 0xFFFFFFFF00000000 ||| (w &&& 0xFFFFFFFF) else w &&& 0xFFFFFFFF))) ∧
    (s.seeded = false → ∀ i ∈ [Instr.nu64 rd, .nu32 rd, .ni64 rd, .ni32 rd], exec i s = .next (s.raise .unseeded i))

/-- R128: `SAVE` writes the fields of the serialised state at their places, leaves every byte from 2540 on and all other state as it
was, and raises `ERR_UNSEEDED` before the first seeding. -/
def Obligations.SaveWritesTheSerialisedState : Prop :=
  hasEncoding .save 0x12 .z ∧
  ∀ s : State,
    (s.seeded = true → ∃ b, exec .save s = .next { s with buf := b } ∧
      let t : State := { s with buf := b }
      t.memRead 0 4 = 312 ∧ t.memRead 4 4 = 156 ∧
      t.memRead 8 8 = Config.gen.upperMask.toNat ∧ t.memRead 16 8 = Config.gen.lowerMask.toNat ∧
      t.memRead 24 8 = Config.gen.mag0.toNat ∧ t.memRead 32 8 = Config.gen.mag1.toNat ∧
      t.memRead 40 4 = s.gen.mti.toNat ∧
      (∀ i : Fin 312, t.memRead (44 + 8 * i.val) 8 = s.gen.mt[i].toNat) ∧
      ∀ a, 2540 ≤ a → t.bufRead a = s.bufRead a) ∧
    (s.seeded = false → exec .save s = .next (s.raise .unseeded .save))

/-- R129: `RESTORE` takes the words and the cursor of the image when all its checks hold, and else raises `ERR_FORMAT`. -/
def Obligations.RestoreChecksTheImage : Prop :=
  hasEncoding .restore 0x13 .z ∧
  ∀ s : State,
    let ok := s.memRead 0 4 = 312 ∧ s.memRead 4 4 = 156 ∧
      s.memRead 8 8 = Config.gen.upperMask.toNat ∧ s.memRead 16 8 = Config.gen.lowerMask.toNat ∧
      s.memRead 24 8 = Config.gen.mag0.toNat ∧ s.memRead 32 8 = Config.gen.mag1.toNat ∧
      0 ≤ (BitVec.ofNat 32 (s.memRead 40 4)).toInt ∧ (BitVec.ofNat 32 (s.memRead 40 4)).toInt ≤ 312
    (ok → ∃ g : Gen, exec .restore s = .next { s with gen := g, seeded := true } ∧
      g.mti.toNat = s.memRead 40 4 ∧ ∀ i : Fin 312, g.mt[i].toNat = s.memRead (44 + 8 * i.val) 8) ∧
    (¬ok → exec .restore s = .next (s.raise .format .restore))

/-- R130: a `RESTORE` that finds in `BUF` the bytes that `SAVE` wrote gives back the generator of the state that was saved, so that
every later draw is the same. -/
def Obligations.RestoreUndoesSave : Prop :=
  ∀ s t u : State, s.seeded = true → s.gen.mti.toNat ≤ 312 → exec .save s = .next t →
    (∀ a < 2540, u.bufRead a = t.bufRead a) →
      exec .restore u = .next { u with gen := s.gen, seeded := true }

/-- R131, R132: `NBYTES` fills `BUF` from byte 0 with the bytes of successive words, least significant first, draws as many words as
that takes, and leaves every other byte as it was; `NBYTESZ` puts one zero byte behind. -/
def Obligations.NbytesFillsTheBuffer : Prop :=
  ∀ (ra : Reg) (s : State),
    let count := (s.reg ra).toNat
    let g := (drawWords ((count + 7) / 8) s.gen).2
    let filled := fun t : State => ∀ k j, j < 8 → 8 * k + j < count →
      t.bufRead (8 * k + j) = (wordDrawn s.gen k).extractLsb' (8 * j) 8
    hasEncoding (.nbytes ra) 0x14 .a ∧ hasEncoding (.nbytesz ra) 0x15 .a ∧
    (s.seeded = true → count ≤ 4096 → ∃ b, exec (.nbytes ra) s = .next { s with gen := g, buf := b } ∧
      filled { s with gen := g, buf := b } ∧
      ∀ a, count ≤ a → ({ s with gen := g, buf := b } : State).bufRead a = s.bufRead a) ∧
    (s.seeded = true → count + 1 ≤ 4096 → ∃ b, exec (.nbytesz ra) s = .next { s with gen := g, buf := b } ∧
      filled { s with gen := g, buf := b } ∧ ({ s with gen := g, buf := b } : State).bufRead count = 0 ∧
      ∀ a, count + 1 ≤ a → ({ s with gen := g, buf := b } : State).bufRead a = s.bufRead a) ∧
    (s.seeded = true → 4096 < count → exec (.nbytes ra) s = .next (s.raise .operand (.nbytes ra))) ∧
    (s.seeded = true → 4096 < count + 1 → exec (.nbytesz ra) s = .next (s.raise .operand (.nbytesz ra))) ∧
    (s.seeded = false → ∀ i ∈ [Instr.nbytes ra, .nbytesz ra], exec i s = .next (s.raise .unseeded i))

/-! The range mapper (41_rangemap.md). -/

/-- R154: the mapping of a word to a 64-bit range: the formula, its bounds, and that each value of the range belongs to the same
number of words, up to one. -/
def Obligations.Map64SpreadsWordsEvenly : Prop :=
  ∀ lo hi : Int, lo ≤ hi → hi - lo < 2 ^ 64 →
    (∀ w : Word64, map64 w lo hi = lo + (w.toNat : Int) * (hi - lo + 1) / 2 ^ 64 ∧
      lo ≤ map64 w lo hi ∧ map64 w lo hi ≤ hi ∧ (hi - lo + 1 = 2 ^ 64 → map64 w lo hi = lo + w.toNat)) ∧
    ∀ v : Int, lo ≤ v → v ≤ hi →
      let words := Nat.card { w : Word64 // map64 w lo hi = v }
      words = 2 ^ 64 / (hi - lo + 1).toNat ∨ words = 2 ^ 64 / (hi - lo + 1).toNat + 1

/-- R155 to R158: the bounded 64-bit outputs, each from one word. -/
def Obligations.BoundedOutputs64 : Prop :=
  ∀ (rd ra rb : Reg) (s : State),
    let w := s.nextDraw.toNat
    let ul := (s.reg ra).toNat
    let uh := (s.reg rb).toNat
    let sl := (s.reg ra).toInt
    let sh := (s.reg rb).toInt
    hasEncoding (.nu64r rd ra rb) 0x24 .dab ∧ hasEncoding (.nu64m rd ra) 0x28 .da ∧
    hasEncoding (.ni64r rd ra rb) 0x26 .dab ∧ hasEncoding (.ni64m rd ra) 0x2A .da ∧
    (s.seeded = true →
      (ul ≤ uh → exec (.nu64r rd ra rb) s =
        .next (s.drawnInto rd (BitVec.ofNat 64 (ul + w * (uh - ul + 1) / 2 ^ 64)))) ∧
      exec (.nu64m rd ra) s = .next (s.drawnInto rd (BitVec.ofNat 64 (w * (ul + 1) / 2 ^ 64))) ∧
      (sl ≤ sh → exec (.ni64r rd ra rb) s =
        .next (s.drawnInto rd (BitVec.ofInt 64 (sl + w * (sh - sl + 1) / 2 ^ 64)))) ∧
      (0 ≤ sl → exec (.ni64m rd ra) s = .next (s.drawnInto rd (BitVec.ofInt 64 (w * (sl + 1) / 2 ^ 64)))) ∧
      (uh < ul → exec (.nu64r rd ra rb) s = .next (s.raise .operand (.nu64r rd ra rb))) ∧
      (sh < sl → exec (.ni64r rd ra rb) s = .next (s.raise .operand (.ni64r rd ra rb))) ∧
      (sl < 0 → exec (.ni64m rd ra) s = .next (s.raise .operand (.ni64m rd ra)))) ∧
    (s.seeded = false → ∀ i ∈ [Instr.nu64r rd ra rb, .nu64m rd ra, .ni64r rd ra rb, .ni64m rd ra],
      exec i s = .next (s.raise .unseeded i))

/-- R159 to R163: the bounded 32-bit outputs, each from one word, with one binary64 rounding; the high halves of the operand
registers play no part. -/
def Obligations.BoundedOutputs32 : Prop :=
  ∀ (rd ra rb : Reg) (s : State),
    let w := s.nextDraw
    let ul : Int := ((s.reg ra).toNat % 2 ^ 32 : Nat)
    let uh : Int := ((s.reg rb).toNat % 2 ^ 32 : Nat)
    let sl := ((s.reg ra).extractLsb' 0 32).toInt
    let sh := ((s.reg rb).extractLsb' 0 32).toInt
    let gives := fun (i : Instr) (lo hi : Int) =>
      ∃ n, mapsTo32 w lo hi n ∧ exec i s = .next (s.drawnInto rd (BitVec.ofInt 64 n))
    hasEncoding (.nu32r rd ra rb) 0x25 .dab ∧ hasEncoding (.nu32m rd ra) 0x29 .da ∧
    hasEncoding (.ni32r rd ra rb) 0x27 .dab ∧ hasEncoding (.ni32m rd ra) 0x2B .da ∧
    (s.seeded = true →
      (ul ≤ uh → gives (.nu32r rd ra rb) ul uh) ∧ gives (.nu32m rd ra) 0 ul ∧
      (sl ≤ sh → gives (.ni32r rd ra rb) sl sh) ∧ (0 ≤ sl → gives (.ni32m rd ra) 0 sl) ∧
      (uh < ul → exec (.nu32r rd ra rb) s = .next (s.raise .operand (.nu32r rd ra rb))) ∧
      (sh < sl → exec (.ni32r rd ra rb) s = .next (s.raise .operand (.ni32r rd ra rb))) ∧
      (sl < 0 → exec (.ni32m rd ra) s = .next (s.raise .operand (.ni32m rd ra)))) ∧
    (s.seeded = false → ∀ i ∈ [Instr.nu32r rd ra rb, .nu32m rd ra, .ni32r rd ra rb, .ni32m rd ra],
      exec i s = .next (s.raise .unseeded i))

/-- R164: a bounded output that completes lies in its range, in the command's own signedness. -/
def Obligations.BoundedOutputsStayInRange : Prop :=
  ∀ (rd ra rb : Reg) (s t : State), s.ecode = 0 → t.ecode = 0 →
    (exec (.nu64r rd ra rb) s = .next t → s.reg ra ≤ t.reg rd ∧ t.reg rd ≤ s.reg rb) ∧
    (exec (.nu64m rd ra) s = .next t → t.reg rd ≤ s.reg ra) ∧
    (exec (.ni64r rd ra rb) s = .next t →
      (s.reg ra).toInt ≤ (t.reg rd).toInt ∧ (t.reg rd).toInt ≤ (s.reg rb).toInt) ∧
    (exec (.ni64m rd ra) s = .next t → 0 ≤ (t.reg rd).toInt ∧ (t.reg rd).toInt ≤ (s.reg ra).toInt) ∧
    (exec (.nu32r rd ra rb) s = .next t →
      (s.regLow ra).toNat ≤ (t.reg rd).toNat ∧ (t.reg rd).toNat ≤ (s.regLow rb).toNat) ∧
    (exec (.nu32m rd ra) s = .next t → (t.reg rd).toNat ≤ (s.regLow ra).toNat) ∧
    (exec (.ni32r rd ra rb) s = .next t →
      (s.regLow ra).toInt ≤ (t.reg rd).toInt ∧ (t.reg rd).toInt ≤ (s.regLow rb).toInt) ∧
    (exec (.ni32m rd ra) s = .next t → 0 ≤ (t.reg rd).toInt ∧ (t.reg rd).toInt ≤ (s.regLow ra).toInt)

/-- The unit doubles (41_rangemap.md section 5): the truncated one is exact; the inclusive one is 0 only for `m = 0`, is monotone,
never above 1, and 1.0 at the top. By the rule's own formula it is 1.0 for exactly two values of `m`, not one (log 23). -/
def Obligations.UnitDoublesOfAWord : Prop :=
  fOfBits Config.mInc = fRound false (2 ^ 1074) (2 ^ 53 - 1) ∧
  (∀ w : Word64, unitTrunc w = .fin false (w.toNat / 2 ^ 11 * 2 ^ 1021)) ∧
  (∀ w : Word64, unitInc w = fMul (fOfInt (w.toNat / 2 ^ 11 : Nat)) (fOfBits Config.mInc)) ∧
  (∀ w : Word64, fLe fZero (unitInc w) = true ∧ fLe (unitInc w) fOne = true) ∧
  (∀ w : Word64, unitInc w = fZero ↔ w.toNat / 2 ^ 11 = 0) ∧
  (∀ w : Word64, unitInc w = fOne ↔ 2 ^ 53 - 2 ≤ w.toNat / 2 ^ 11) ∧
  ∀ w v : Word64, w.toNat / 2 ^ 11 ≤ v.toNat / 2 ^ 11 → fLe (unitInc w) (unitInc v) = true

/-- `ND`, `NDM`, `NDR`, `NTD`, `NTDM`, `NTDR` (41_rangemap.md section 5): the formula of each, from one word, and the operands that
each refuses. -/
def Obligations.DoubleOutputs : Prop :=
  ∀ (rd ra rb : Reg) (s : State),
    let w := s.nextDraw
    let a := s.regF ra
    let b := s.regF rb
    let maxGood := fFinite a = true ∧ fLt a fZero = false
    let rangeGood := fFinite a = true ∧ fFinite b = true ∧ fLt b a = false ∧ fFinite (fSub b a) = true
    let gives := fun (i : Instr) (v : F64) => exec i s = .next (s.drawnInto rd (fToBits v))
    let refuses := fun i : Instr => exec i s = .next (s.raise .operand i)
    hasEncoding (.nd rd) 0x30 .d ∧ hasEncoding (.ndm rd ra) 0x31 .da ∧ hasEncoding (.ndr rd ra rb) 0x32 .dab ∧
    hasEncoding (.ntd rd) 0x34 .d ∧ hasEncoding (.ntdm rd ra) 0x35 .da ∧ hasEncoding (.ntdr rd ra rb) 0x36 .dab ∧
    (s.seeded = true →
      gives (.nd rd) (unitInc w) ∧ gives (.ntd rd) (unitTrunc w) ∧
      (maxGood → gives (.ndm rd ra) (fMul (unitInc w) a) ∧ gives (.ntdm rd ra) (fMul (unitTrunc w) a)) ∧
      (rangeGood → gives (.ndr rd ra rb) (fAdd a (fMul (unitInc w) (fSub b a))) ∧
        gives (.ntdr rd ra rb) (fAdd a (fMul (unitTrunc w) (fSub b a)))) ∧
      (¬maxGood → refuses (.ndm rd ra) ∧ refuses (.ntdm rd ra)) ∧
      (¬rangeGood → refuses (.ndr rd ra rb) ∧ refuses (.ntdr rd ra rb)))

/-- A truncated double never reaches its maximum, for every maximum above 2^-1022 (41_rangemap.md section 5, 90_conflicts.md C3). -/
def Obligations.TruncatedDoubleStaysBelowMax : Prop :=
  ∀ w b : Word64, fFinite (fOfBits b) = true → fLt (.fin false (2 ^ 52)) (fOfBits b) = true →
    fLt (fMul (unitTrunc w) (fOfBits b)) (fOfBits b) = true

/-- Binary64 (00_scope.md section 4). Rounding gives the nearest binary64 number, a tie the one with an even last fraction bit, and
infinity from the midpoint above the largest finite number on. Sum, difference, product, quotient and the conversion of an integer are
that rounding of the exact result, with the IEEE 754 results for infinities, NaNs and signed zeros. Patterns and numbers correspond one
to one, a pattern having its IEEE 754 value. Comparisons are by value and false with a NaN; the floor is the largest integer not
above, and a floor of 0 keeps the sign (the model's reading, log 9). Which pattern a NaN result has is a free value (log 8) and not
stated. -/
def Obligations.RoundingIsToNearestEven : Prop :=
  (∀ (neg : Bool) (num den : Nat), 0 < den →
    ((2 ^ 54 - 1) * 2 ^ 2044 * den ≤ num → fRound neg num den = .inf neg) ∧
    (num < (2 ^ 54 - 1) * 2 ^ 2044 * den → ∃ mag, fRound neg num den = .fin neg mag ∧ representable mag ∧
      ∀ m, representable m →
        ((num : Int) - mag * den).natAbs ≤ ((num : Int) - m * den).natAbs ∧
        (m ≠ mag → ((num : Int) - mag * den).natAbs = ((num : Int) - m * den).natAbs → fMagBits mag % 2 = 0))) ∧
  (∀ (a b : Bool) (m n : Nat),
    let x := if a then -(m : Int) else m
    let y := if b then -(n : Int) else n
    (x + y ≠ 0 → fAdd (.fin a m) (.fin b n) = fRound (decide (x + y < 0)) (x + y).natAbs 1) ∧
    (x + y = 0 → fAdd (.fin a m) (.fin b n) = .fin (a && b) 0) ∧
    (x - y ≠ 0 → fSub (.fin a m) (.fin b n) = fRound (decide (x - y < 0)) (x - y).natAbs 1) ∧
    (x - y = 0 → fSub (.fin a m) (.fin b n) = .fin (a && !b) 0) ∧
    fMul (.fin a m) (.fin b n) = fRound (a ^^ b) (m * n) (2 ^ 1074) ∧
    (n ≠ 0 → fDiv (.fin a m) (.fin b n) = fRound (a ^^ b) (m * 2 ^ 1074) n) ∧
    (m ≠ 0 → fDiv (.fin a m) (.fin b 0) = .inf (a ^^ b)) ∧ fDiv (.fin a 0) (.fin b 0) = .nan ∧
    fAdd (.inf a) (.fin b n) = .inf a ∧ fAdd (.fin a m) (.inf b) = .inf b ∧
    fAdd (.inf a) (.inf b) = (if a = b then .inf a else .nan) ∧
    fSub (.inf a) (.fin b n) = .inf a ∧ fSub (.fin a m) (.inf b) = .inf (!b) ∧
    fSub (.inf a) (.inf b) = (if a = b then .nan else .inf a) ∧
    fMul (.inf a) (.inf b) = .inf (a ^^ b) ∧
    fMul (.inf a) (.fin b n) = (if n = 0 then .nan else .inf (a ^^ b)) ∧
    fMul (.fin a m) (.inf b) = (if m = 0 then .nan else .inf (a ^^ b)) ∧
    fDiv (.inf a) (.inf b) = .nan ∧ fDiv (.inf a) (.fin b n) = .inf (a ^^ b) ∧
    fDiv (.fin a m) (.inf b) = .fin (a ^^ b) 0 ∧
    (fLt (.fin a m) (.fin b n) = true ↔ x < y) ∧ (fLe (.fin a m) (.fin b n) = true ↔ x ≤ y) ∧
    ifloor (.fin a m) = some ⌊(x : ℚ) / 2 ^ 1074⌋ ∧
    (∃ k, ffloor (.fin a m) = .fin a k ∧ (if a then -(k : Int) else k) = ⌊(x : ℚ) / 2 ^ 1074⌋ * 2 ^ 1074)) ∧
  (∀ v : F64, fAdd .nan v = .nan ∧ fAdd v .nan = .nan ∧ fSub .nan v = .nan ∧ fSub v .nan = .nan ∧ fMul .nan v = .nan ∧
    fMul v .nan = .nan ∧ fDiv .nan v = .nan ∧ fDiv v .nan = .nan ∧
    fLt .nan v = false ∧ fLt v .nan = false ∧ fLe .nan v = false ∧ fLe v .nan = false) ∧
  (∀ (a b c : Bool) (m : Nat), representable m →
    fLt (.inf true) (.fin a m) = true ∧ fLt (.fin a m) (.inf false) = true ∧
    fLt (.inf false) (.fin a m) = false ∧ fLt (.fin a m) (.inf true) = false ∧
    fLe (.inf true) (.fin a m) = true ∧ fLe (.fin a m) (.inf false) = true ∧
    fLe (.inf false) (.fin a m) = false ∧ fLe (.fin a m) (.inf true) = false ∧
    (fLt (.inf b) (.inf c) = true ↔ b = true ∧ c = false) ∧ (fLe (.inf b) (.inf c) = true ↔ b = true ∨ c = false)) ∧
  (∀ n : Int, fOfInt n = fRound (decide (n < 0)) (n.natAbs * 2 ^ 1074) 1 ∧
    (n.natAbs ≤ 2 ^ 53 → fOfInt n = .fin (decide (n < 0)) (n.natAbs * 2 ^ 1074))) ∧
  (∀ v : F64, (fFinite v = true ↔ v ≠ .nan ∧ v ≠ .inf false ∧ v ≠ .inf true) ∧ (fFinite v = false → ifloor v = none)) ∧
  (∀ b : Word64,
    let ex := b.toNat / 2 ^ 52 % 2 ^ 11
    let fr := b.toNat % 2 ^ 52
    (ex < 2047 → ∃ mag, representable mag ∧ fOfBits b = .fin (decide (2 ^ 63 ≤ b.toNat)) mag ∧
      mag = if ex = 0 then fr else (2 ^ 52 + fr) * 2 ^ (ex - 1)) ∧
    (ex = 2047 → fr = 0 → fOfBits b = .inf (decide (2 ^ 63 ≤ b.toNat))) ∧
    (ex = 2047 → fr ≠ 0 → fOfBits b = .nan) ∧
    (fOfBits b ≠ .nan → fToBits (fOfBits b) = b)) ∧
  (∀ (neg : Bool) (mag : Nat), representable mag → fOfBits (fToBits (.fin neg mag)) = .fin neg mag) ∧
  (∀ neg : Bool, fOfBits (fToBits (.inf neg)) = .inf neg) ∧ fOfBits (fToBits .nan) = .nan

/-- R174 to R179: the fixed-point outputs, each from one word, in a register pair, with the bounds that the rules state. -/
def Obligations.FixedPointOutputs : Prop :=
  ∀ (rd ra rb : Reg) (s : State),
    let w := s.nextDraw
    let a := s.regQ ra
    let b := s.regQ rb
    let gives := fun (i : Instr) (v : Int) => ∃ lo hi : Word64,
      exec i s = .next (s.drawnIntoPair rd lo hi) ∧ hi.toInt * 2 ^ 64 + lo.toNat = v
    let refuses := fun i : Instr => exec i s = .next (s.raise .operand i)
    hasEncoding (.nh rd) 0x38 .d ∧ hasEncoding (.nhm rd ra) 0x39 .da ∧ hasEncoding (.nhr rd ra rb) 0x3A .dab ∧
    hasEncoding (.nth rd) 0x3C .d ∧ hasEncoding (.nthm rd ra) 0x3D .da ∧ hasEncoding (.nthr rd ra rb) 0x3E .dab ∧
    (rd.val ≤ 14 → ra.val ≤ 14 → rb.val ≤ 14 → s.seeded = true →
      (w ≠ BitVec.allOnes 64 → exec (.nh rd) s = .next (s.drawnIntoPair rd w 0)) ∧
      (w = BitVec.allOnes 64 → exec (.nh rd) s = .next (s.drawnIntoPair rd 0 1)) ∧
      exec (.nth rd) s = .next (s.drawnIntoPair rd w 0) ∧
      (0 ≤ a → gives (.nhm rd ra) (w.toNat * a / (2 ^ 64 - 1)) ∧ gives (.nthm rd ra) (w.toNat * a / 2 ^ 64)) ∧
      (0 < a → (w.toNat : Int) * a / 2 ^ 64 < a) ∧
      (a ≤ b → gives (.nhr rd ra rb) (a + w.toNat * (b - a) / (2 ^ 64 - 1)) ∧
        gives (.nthr rd ra rb) (a + w.toNat * (b - a) / 2 ^ 64) ∧ a ≤ a + w.toNat * (b - a) / 2 ^ 64 ∧
        a ≤ a + w.toNat * (b - a) / (2 ^ 64 - 1) ∧ a + w.toNat * (b - a) / (2 ^ 64 - 1) ≤ b) ∧
      (a < b → a + w.toNat * (b - a) / 2 ^ 64 < b) ∧
      (a < 0 → refuses (.nhm rd ra) ∧ refuses (.nthm rd ra)) ∧
      (b < a → refuses (.nhr rd ra rb) ∧ refuses (.nthr rd ra rb))) ∧
    (rd.val ≤ 14 → ra.val ≤ 14 → rb.val ≤ 14 → s.seeded = false →
      ∀ i ∈ [Instr.nh rd, .nhm rd ra, .nhr rd ra rb, .nth rd, .nthm rd ra, .nthr rd ra rb],
        exec i s = .next (s.raise .unseeded i))

/-! Primality (42_primality.md). -/

/-- R200: the table holds exactly the primes not above 65535, in ascending order, 6542 of them, and the bitmap agrees with it. -/
def Obligations.PrimeTable : Prop :=
  (∀ p : Nat, p ∈ primes ↔ p ≤ 65535 ∧ p.Prime) ∧ primes.Pairwise (· < ·) ∧ primes.length = 6542 ∧
  primes.take 10 = [2, 3, 5, 7, 11, 13, 17, 19, 23, 29] ∧ primes[54]? = some 257 ∧
  primes.drop 6539 = [65497, 65519, 65521] ∧ (∀ n ≤ 65535, isp n = true ↔ n ∈ primes) ∧
  isp 0 = false ∧ isp 1 = false ∧ isp 2 = true

/-- R202: `WITNESS` draws one word, which selects an entry of the prime table through the 32-bit mapping. -/
def Obligations.WitnessIsATablePrime : Prop :=
  (∀ rd : Reg, hasEncoding (.witness rd) 0x40 .d) ∧
  ∀ (rd : Reg) (s : State),
    (s.seeded = true → ∃ idx p : Nat, mapsTo32 s.nextDraw 0 6541 idx ∧ primes[idx]? = some p ∧
      p.Prime ∧ 2 ≤ p ∧ p ≤ 65521 ∧ exec (.witness rd) s = .next (s.drawnInto rd (BitVec.ofNat 64 p))) ∧
    (s.seeded = false → exec (.witness rd) s = .next (s.raise .unseeded (.witness rd)))

/-- R204: one Miller–Rabin round passes exactly when the base's power is 1, or is −1 at some point of the doubling sequence. -/
def Obligations.MillerRabinRound : Prop :=
  ∀ n e d a : Nat, 65535 < n → n < 2 ^ 63 → n - 1 = 2 ^ e * d → d % 2 = 1 → 1 ≤ e →
    (roundPasses n e d a = true ↔ a ^ d % n = 1 ∨ ∃ j < e, a ^ (2 ^ j * d) % n = n - 1)

/-- R205, R206: the four steps of `ISPRIME`: what each answers, how many words are drawn, and when the seed is missed. The witness of
round `k` is the one that the `k`-th word drawn selects. -/
def Obligations.IsprimeRunsItsSteps : Prop :=
  ∀ (rd ra : Reg) (rounds : BitVec 12) (s : State),
    let n := s.regS ra
    let i := Instr.isprime rd ra rounds
    let hasFactor := ∃ p : Nat, p.Prime ∧ p ≤ 65535 ∧ (p : Int) ∣ n
    hasEncoding i 0x41 .dai ∧
    (n ≤ 0 → exec i s = .next (s.onlyReg rd 0)) ∧
    (0 < n → n ≤ 65535 → exec i s = .next (s.onlyReg rd (if n.toNat.Prime then 1 else 0))) ∧
    (65535 < n → hasFactor → exec i s = .next (s.onlyReg rd 0)) ∧
    (65535 < n → ¬hasFactor → rounds = 0 → exec i s = .next (s.onlyReg rd 1)) ∧
    (65535 < n → ¬hasFactor → rounds ≠ 0 → s.seeded = false → exec i s = .next (s.raise .unseeded i)) ∧
    (65535 < n → ¬hasFactor → s.seeded = true → ∀ e d : Nat, n.toNat - 1 = 2 ^ e * d → d % 2 = 1 →
      let passes := fun k => roundPasses n.toNat e d (witnessOf (wordDrawn s.gen k))
      ((∀ k < rounds.toNat, passes k = true) → exec i s =
        .next { s with gen := (drawWords rounds.toNat s.gen).2, r := s.r.set rd 1 }) ∧
      ∀ k < rounds.toNat, (∀ j < k, passes j = true) → passes k = false → exec i s =
        .next { s with gen := (drawWords (k + 1) s.gen).2, r := s.r.set rd 0 })

/-- A prime is always answered 1, so that an answer 0 is always right (42_primality.md section 3). -/
def Obligations.PrimeIsAlwaysAnsweredOne : Prop :=
  ∀ (rd ra : Reg) (rounds : BitVec 12) (s : State) (p : Nat), s.seeded = true → p.Prime → s.regS ra = p →
    ∃ t, exec (.isprime rd ra rounds) s = .next t ∧ t.reg rd = 1

/-! The noise generators (43_octave_perlin.md, 44_simplex.md). -/

/-- R226, R228, R268, R269, R271: the configuration commands that need no rebuild write one register each, `SFREQ`
none. The axis of an axis setting is the low two bits of its word. -/
def Obligations.SettingsWriteOneRegister : Prop :=
  ∀ (ra : Reg) (axis : Axis) (s : State),
    let low := BitVec.ofNat 32 ((s.reg ra).toNat % 2 ^ 32)
    let k := axisIndex axis
    hasEncoding (.poct ra) 0x52 .a ∧ hasEncoding (.poff ra axis) 0x53 .ai ∧ hasEncoding (.pscl ra axis) 0x54 .ai ∧
    hasEncoding (.sfreq ra) 0x61 .a ∧ hasEncoding (.soct ra) 0x62 .a ∧ hasEncoding (.soff ra axis) 0x63 .ai ∧
    hasEncoding (.sscl ra axis) 0x64 .ai ∧
    (∀ i ∈ [Instr.poff ra axis, .pscl ra axis, .soff ra axis, .sscl ra axis],
      (encode i).extractLsb' 0 2 = BitVec.ofNat 2 k.val) ∧
    exec (.poct ra) s = .next { s with pOct := low } ∧ exec (.soct ra) s = .next { s with sOct := low } ∧
    exec (.poff ra axis) s = .next { s with pOff := s.pOff.set k (s.reg ra) } ∧
    exec (.pscl ra axis) s = .next { s with pScl := s.pScl.set k (s.reg ra) } ∧
    exec (.soff ra axis) s = .next { s with sOff := s.sOff.set k (s.reg ra) } ∧
    exec (.sscl ra axis) s = .next { s with sScl := s.sScl.set k (s.reg ra) } ∧
    exec (.sfreq ra) s = .next s

/-- `PSEED`, `PFREQ` and `PBUILD` rebuild in the same command (43_octave_perlin.md sections 3 and 4). A build changes the tables and
`PBUILT` alone. Its lattice values are the truncated unit doubles of the first `F` words of the private generator. The table of each axis
starts from the identity and takes `5F` swaps, five passes over the `F` entries, each with a partner that one further word selects through
the 32-bit mapping, the axes X, Y, Z, T one after another; the second half repeats the first. So the tables depend on the seed and the
frequency alone. -/
def Obligations.PerlinRebuilds : Prop :=
  (∀ ra : Reg, hasEncoding (.pseed ra) 0x50 .a ∧ hasEncoding (.pfreq ra) 0x51 .a ∧ hasEncoding .pbuild 0x55 .z) ∧
  (∀ (ra : Reg) (s : State),
    exec .pbuild s = .next s.perlinBuild ∧
    exec (.pseed ra) s = .next ({ s with pSeed := s.reg ra } : State).perlinBuild ∧
    (1 ≤ (s.reg ra).toInt → (s.reg ra).toInt ≤ 4096 →
      exec (.pfreq ra) s = .next ({ s with pFreq := s.reg ra } : State).perlinBuild) ∧
    ((s.reg ra).toInt < 1 ∨ 4096 < (s.reg ra).toInt → exec (.pfreq ra) s = .next (s.raise .config (.pfreq ra)))) ∧
  ∀ s : State, s.freq ≤ 4096 →
    (∃ v p, s.perlinBuild = { s with val := v, perm := p, pbuilt := true }) ∧
    (∀ k < s.freq, s.perlinBuild.valAt k =
      .fin false ((wordDrawn (initState s.pSeed) k).toNat / 2 ^ 11 * 2 ^ 1021)) ∧
    (∀ a < 4, ∃ table : Nat → Nat → Nat, (∀ k, table 0 k = k) ∧
      (∀ n < 5 * s.freq,
        let i := n % s.freq
        ∃ j : Nat, mapsTo32 (wordDrawn (initState s.pSeed) (s.freq + 5 * s.freq * a + n)) 0 ((s.freq : Int) - 1) j ∧
          table (n + 1) i = table n j ∧ table (n + 1) j = table n i ∧
          ∀ k, k ≠ i → k ≠ j → table (n + 1) k = table n k) ∧
      ∀ k < s.freq, s.perlinBuild.permAt a k = table (5 * s.freq) k ∧
        s.perlinBuild.permAt a (s.freq + k) = table (5 * s.freq) k) ∧
    ∀ t : State, t.pSeed = s.pSeed → t.pFreq = s.pFreq →
      (∀ k < s.freq, t.perlinBuild.valAt k = s.perlinBuild.valAt k) ∧
      ∀ a < 4, ∀ k < 2 * s.freq, t.perlinBuild.permAt a k = s.perlinBuild.permAt a k

/-- The octave blender (43_octave_perlin.md section 2): with a count of 0 or less the result is +0.0; else it is the sum of the base
values, octave `k` at coordinates doubled `k` times and amplitude 2^-k, divided by the sum of the amplitudes; and it is an error
exactly when some octave is. Each coordinate is placed once, before the octaves: its offset is added, and the sum is multiplied by its
scale. -/
def Obligations.BlendSumsItsOctaves : Prop :=
  (∀ x off scl : List F64, (placeCoords x off scl).length = min x.length (min off.length scl.length) ∧
    ∀ (a : Nat) (hx : a < x.length) (ho : a < off.length) (hs : a < scl.length),
      (placeCoords x off scl)[a]? = some (fMul (fAdd x[a] off[a]) scl[a])) ∧
  (∀ (c : List F64) (k : Nat), octaveCoords c 0 = c ∧
    octaveCoords c (k + 1) = (octaveCoords c k).map (fun v => fMul v (fOfInt 2))) ∧
  ∀ (base : List F64 → Option F64) (x off scl : List F64) (oct : Int),
    let c := placeCoords x off scl
    let n := oct.toNat
    (oct ≤ 0 → blend base x off scl oct = some fZero) ∧
    (∀ v : Nat → F64, 0 < oct → (∀ k < n, base (octaveCoords c k) = some (v k)) →
      blend base x off scl oct = some (fDiv
        ((List.range n).foldl (fun sum k => fAdd sum (fMul (octaveAmp k) (v k))) fZero)
        ((List.range n).foldl (fun norm k => fAdd norm (octaveAmp k)) fZero))) ∧
    (0 < oct → (blend base x off scl oct = none ↔ ∃ k < n, base (octaveCoords c k) = none))

/-- `PN1` to `PN4` (43_octave_perlin.md sections 1 and 5): with built tables, an evaluation whose coordinates stay finite in every
octave writes one register with the blended value, and any other raises `ERR_OPERAND`; with an octave count of 0 or less nothing is
examined and the register takes +0.0. The offset and the scale of axis `a` are those that the registers of that axis hold. -/
def Obligations.PerlinEvaluationsComplete : Prop :=
  (∀ v : Vector Word64 4, (axisValues v).length = 4 ∧ ∀ a : Fin 4, (axisValues v)[a.val]? = some (fOfBits v[a])) ∧
  (∀ rd ra : Reg, hasEncoding (.pn1 rd ra) 0x58 .da ∧ hasEncoding (.pn2 rd ra) 0x59 .da ∧
    hasEncoding (.pn3 rd ra) 0x5A .da ∧ hasEncoding (.pn4 rd ra) 0x5B .da) ∧
  ∀ (rd ra : Reg) (s : State),
    ∀ q ∈ [(Instr.pn1 rd ra, 1), (.pn2 rd ra, 2), (.pn3 rd ra, 3), (.pn4 rd ra, 4)],
      ra.val + q.2 ≤ 16 → s.pbuilt = true →
        let x := s.group ra q.2
        let c := placeCoords x (axisValues s.pOff) (axisValues s.pScl)
        let oct := s.pOct.toInt
        (oct ≤ 0 → exec q.1 s = .next (s.onlyReg rd 0)) ∧
        (0 < oct → (∀ k < oct.toNat, perlinEvaluable (octaveCoords c k)) →
          ∃ v, blend s.perlinBase x (axisValues s.pOff) (axisValues s.pScl) oct = some v ∧
            exec q.1 s = .next (s.onlyReg rd (fToBits v))) ∧
        (0 < oct → (∃ k < oct.toNat, ¬perlinEvaluable (octaveCoords c k)) →
          exec q.1 s = .next (s.raise .operand q.1))

/-- The Perlin base value (43_octave_perlin.md section 5): the nested walk over the permutation arrays, from the outermost axis to x,
with the wrapped index and the faded fraction of each coordinate; and the fade curve, with the section's examples, and the interpolation
that the walk uses. -/
def Obligations.PerlinBaseWalksTheLattice : Prop :=
  (∀ t a b : F64,
    fade t = fMul (fMul (fMul t t) t) (fAdd (fMul t (fSub (fMul t (fOfInt 6)) (fOfInt 15))) (fOfInt 10)) ∧
    lerp t a b = fAdd a (fMul t (fSub b a))) ∧
  (fade fZero = fZero ∧ fade fHalf = fHalf ∧ fade fOne = fOne ∧
    fToBits (fade (fOfBits 0x3FD0000000000000)) = 0x3FBA800000000000 ∧
    fToBits (fade (fOfBits 0x3FE8000000000000)) = 0x3FECB00000000000 ∧
    fToBits (fade (fOfBits 0x3FB999999999999A)) = 0x3F8187E7C06E19BB) ∧
  ∀ (s : State) (n0 n1 n2 n3 : Bool) (m0 m1 m2 m3 : Nat), 1 ≤ s.freq →
    let whole := fun (neg : Bool) (m : Nat) => (if neg then -(m : Int) else m) / (2 ^ 1074 : Int)
    let idx := fun (neg : Bool) (m : Nat) => (whole neg m % s.freq).toNat
    let frac := fun (neg : Bool) (m : Nat) => fade (fSub (.fin neg m) (ffloor (.fin neg m)))
    let row := fun off => lerp (frac n0 m0) (s.valAt (s.permAt 0 (off + idx n0 m0)))
      (s.valAt (s.permAt 0 (off + idx n0 m0 + 1)))
    let plane := fun off => lerp (frac n1 m1) (row (s.permAt 1 (off + idx n1 m1)))
      (row (s.permAt 1 (off + idx n1 m1 + 1)))
    let cube := fun off => lerp (frac n2 m2) (plane (s.permAt 2 (off + idx n2 m2)))
      (plane (s.permAt 2 (off + idx n2 m2 + 1)))
    s.perlinBase [.fin n0 m0] = some (row 0) ∧
    s.perlinBase [.fin n0 m0, .fin n1 m1] = some (plane 0) ∧
    s.perlinBase [.fin n0 m0, .fin n1 m1, .fin n2 m2] = some (cube 0) ∧
    s.perlinBase [.fin n0 m0, .fin n1 m1, .fin n2 m2, .fin n3 m3] =
      some (lerp (frac n3 m3) (cube (s.permAt 3 (idx n3 m3))) (cube (s.permAt 3 (idx n3 m3 + 1))))

/-- Base values repeat with the period `P_FREQ` on every axis, where the sum is computed without rounding (43_octave_perlin.md
section 5, "Periodicity"). -/
def Obligations.PerlinBaseIsPeriodic : Prop :=
  ∀ (s : State) (c c' : List F64), 1 ≤ s.freq →
    List.Forall₂ (fun v v' => ∃ (a b : Bool) (m n : Nat) (k : Int), v = .fin a m ∧ v' = .fin b n ∧
      fSigned b n = fSigned a m + k * s.freq * 2 ^ 1074) c c' →
    s.perlinBase c' = s.perlinBase c

/-- R261, R262, R272: `SSEED` and `SBUILD` fill the simplex tables from the low bytes of 256 words of the private generator. -/
def Obligations.SimplexRebuilds : Prop :=
  ∀ (ra : Reg) (s : State),
    let built := fun (seed : Word64) (sp : Vector Byte 512) (sm12 : Vector (Fin 12) 512) (sm32 : Vector (Fin 32) 512) =>
      (∀ (k : Nat) (h : k < 256), sp[k] = (wordDrawn (initState seed) k).extractLsb' 0 8 ∧ sp[256 + k] = sp[k]) ∧
      ∀ (k : Nat) (h : k < 512), (sm12[k] : Nat) = sp[k].toNat % 12 ∧ (sm32[k] : Nat) = sp[k].toNat % 32
    hasEncoding (.sseed ra) 0x60 .a ∧ hasEncoding .sbuild 0x65 .z ∧
    (∃ sp sm12 sm32, built (s.reg ra) sp sm12 sm32 ∧
      exec (.sseed ra) s = .next { s with sSeed := s.reg ra, sp := sp, sm12 := sm12, sm32 := sm32, sbuilt := true }) ∧
    ∃ sp sm12 sm32, built s.sSeed sp sm12 sm32 ∧
      exec .sbuild s = .next { s with sp := sp, sm12 := sm12, sm32 := sm32, sbuilt := true }

/-- `SN2`, `SN3`, `SN4` (44_simplex.md section 3): as the Perlin evaluations, with the simplex base of each dimension, and what each base
is where every skewed coordinate has a cell: the skew, the unskewed offsets, the corner order with its ties, the corner offsets, the
chained gradient index, the kernel and the output constant, each in the order of its rule. The constants are those of 44_simplex.md
section 2 by their definitions there, the gradients by their formulas; that these open parameters have these values is the model's
choice (log 1). -/
def Obligations.SimplexEvaluationsComplete : Prop :=
  let bits := fOfBits
  let c := Config.simplex
  let sq := fun v : F64 => fMul v v
  let kernel := fun t d : F64 => if fLt fZero t = true then fMul (fMul (fMul t t) (fMul t t)) d else fZero
  let g3 := fun g a : Nat => fOfInt ((Config.simplex.grad3.getD g []).getD a 0)
  let g4 := fun g a : Nat => fOfInt ((Config.simplex.grad4.getD g []).getD a 0)
  let r2 := bits 0x3FE0000000000000
  let r34 := bits 0x3FE3333333333333
  let low := fun n : Int => (n % 256).toNat
  let won := fun p q : F64 => (fLt q p).toNat
  let sqrt3 := bits 0x3FFBB67AE8584CAA
  let sqrt5 := bits 0x4001E3779B97F4A8
  let f := fOfInt
  (∀ (s : State) (x y : F64) (i j : Int),
    let sk := fMul (fAdd x y) (bits c.f2)
    ifloor (fAdd x sk) = some i → ifloor (fAdd y sk) = some j →
      let t := fMul (f (i + j)) (bits c.g2)
      let x0 := fSub x (fSub (f i) t)
      let y0 := fSub y (fSub (f j) t)
      let o : Nat × Nat := if fLt y0 x0 = true then (1, 0) else (0, 1)
      let n := fun (g : Nat) (p q : F64) =>
        kernel (fSub (fSub r2 (sq p)) (sq q)) (fAdd (fMul (g3 g 0) p) (fMul (g3 g 1) q))
      let at1 := fun (v : F64) (k : Nat) => fAdd (fSub v (f k)) (bits c.g2)
      let at2 := fun v : F64 => fAdd (fSub v fOne) (bits c.twoG2)
      let n0 := n (s.sm12At (low i + s.spAt (low j))) x0 y0
      let n1 := n (s.sm12At (low i + o.1 + s.spAt (low j + o.2))) (at1 x0 o.1) (at1 y0 o.2)
      let n2 := n (s.sm12At (low i + 1 + s.spAt (low j + 1))) (at2 x0) (at2 y0)
      s.simplexBase2 [x, y] = some (fAdd fHalf (fMul (bits c.k2) (fAdd (fAdd n0 n1) n2)))) ∧
  (∀ (s : State) (x y z : F64) (i j k : Int),
    let sk := fMul (fAdd (fAdd x y) z) (bits c.f3)
    ifloor (fAdd x sk) = some i → ifloor (fAdd y sk) = some j → ifloor (fAdd z sk) = some k →
      let t := fMul (f (i + j + k)) (bits c.g3)
      let x0 := fSub x (fSub (f i) t)
      let y0 := fSub y (fSub (f j) t)
      let z0 := fSub z (fSub (f k) t)
      let o : (Nat × Nat × Nat) × (Nat × Nat × Nat) :=
        if fLe y0 x0 = true then
          if fLe z0 y0 = true then ((1, 0, 0), (1, 1, 0))
          else if fLe z0 x0 = true then ((1, 0, 0), (1, 0, 1)) else ((0, 0, 1), (1, 0, 1))
        else if fLt y0 z0 = true then ((0, 0, 1), (0, 1, 1))
          else if fLt x0 z0 = true then ((0, 1, 0), (0, 1, 1)) else ((0, 1, 0), (1, 1, 0))
      let idx := fun p : Nat × Nat × Nat => low i + p.1 + s.spAt (low j + p.2.1 + s.spAt (low k + p.2.2))
      let n := fun (g : Nat) (p q r : F64) => kernel (fSub (fSub (fSub r34 (sq p)) (sq q)) (sq r))
        (fAdd (fAdd (fMul (g3 g 0) p) (fMul (g3 g 1) q)) (fMul (g3 g 2) r))
      let off := fun (v : F64) (k : Nat) (m : Word64) => fAdd (fSub v (f k)) (bits m)
      let n0 := n (s.sm12At (idx (0, 0, 0))) x0 y0 z0
      let n1 := n (s.sm12At (idx o.1)) (off x0 o.1.1 c.g3) (off y0 o.1.2.1 c.g3) (off z0 o.1.2.2 c.g3)
      let n2 := n (s.sm12At (idx o.2)) (off x0 o.2.1 c.twoG3) (off y0 o.2.2.1 c.twoG3) (off z0 o.2.2.2 c.twoG3)
      let n3 := n (s.sm12At (idx (1, 1, 1))) (off x0 1 c.threeG3) (off y0 1 c.threeG3) (off z0 1 c.threeG3)
      s.simplexBase3 [x, y, z] = some (fAdd fHalf (fMul (bits c.k3) (fAdd (fAdd (fAdd n0 n1) n2) n3)))) ∧
  (∀ (s : State) (x y z w : F64) (i j k l : Int),
    let sk := fMul (fAdd (fAdd (fAdd x y) z) w) (bits c.f4)
    ifloor (fAdd x sk) = some i → ifloor (fAdd y sk) = some j → ifloor (fAdd z sk) = some k → ifloor (fAdd w sk) = some l →
      let t := fMul (f (i + j + k + l)) (bits c.g4)
      let x0 := fSub x (fSub (f i) t)
      let y0 := fSub y (fSub (f j) t)
      let z0 := fSub z (fSub (f k) t)
      let w0 := fSub w (fSub (f l) t)
      let ranks := Config.rank (32 * won x0 y0 + 16 * won x0 z0 + 8 * won y0 z0 + 4 * won x0 w0 + 2 * won y0 w0 + won z0 w0)
      let o := fun m axis : Nat => if m = 0 then 0 else if 4 - m ≤ ranks.getD axis 0 then 1 else 0
      let idx := fun m : Nat => low i + o m 0 + s.spAt (low j + o m 1 + s.spAt (low k + o m 2 + s.spAt (low l + o m 3)))
      let n := fun (g : Nat) (p q r v : F64) =>
        kernel (fSub (fSub (fSub (fSub r34 (sq p)) (sq q)) (sq r)) (sq v))
          (fAdd (fAdd (fAdd (fMul (g4 g 0) p) (fMul (g4 g 1) q)) (fMul (g4 g 2) r)) (fMul (g4 g 3) v))
      let off := fun (v : F64) (m axis : Nat) (b : Word64) => fAdd (fSub v (f (o m axis))) (bits b)
      let moved := fun (m : Nat) (b : Word64) =>
        n (s.sm32At (idx m)) (off x0 m 0 b) (off y0 m 1 b) (off z0 m 2 b) (off w0 m 3 b)
      let n0 := n (s.sm32At (idx 0)) x0 y0 z0 w0
      s.simplexBase4 [x, y, z, w] = some (fAdd fHalf (fMul (bits c.k4)
        (fAdd (fAdd (fAdd (fAdd n0 (moved 1 c.g4)) (moved 2 c.twoG4)) (moved 3 c.threeG4)) (moved 4 c.fourG4))))) ∧
  (bits c.f2 = fMul (fSub sqrt3 (f 1)) fHalf ∧ bits c.g2 = fDiv (fSub (f 3) sqrt3) (f 6) ∧
    bits c.f3 = fDiv (f 1) (f 3) ∧ bits c.g3 = fDiv (f 1) (f 6) ∧
    bits c.f4 = fDiv (fSub sqrt5 (f 1)) (f 4) ∧ bits c.g4 = fDiv (fSub (f 5) sqrt5) (f 20) ∧
    bits c.twoG2 = fMul (f 2) (bits c.g2) ∧ bits c.twoG3 = fMul (f 2) (bits c.g3) ∧ bits c.threeG3 = fMul (f 3) (bits c.g3) ∧
    bits c.twoG4 = fMul (f 2) (bits c.g4) ∧ bits c.threeG4 = fMul (f 3) (bits c.g4) ∧ bits c.fourG4 = fMul (f 4) (bits c.g4) ∧
    bits c.k2 = f 35 ∧ bits c.k3 = f 16 ∧ bits c.k4 = fDiv (f 27) (f 2)) ∧
  (Config.simplex.grad3.length = 12 ∧ Config.simplex.grad4.length = 32 ∧
    (∀ g < 12, Config.simplex.grad3[g]? = some (([1 - 2 * (g % 2 : Nat), 1 - 2 * (g / 2 % 2 : Nat)] : List Int).insertIdx (2 - g / 4) 0)) ∧
    ∀ g < 32, Config.simplex.grad4[g]? = some
      (([1 - 2 * (g / 4 % 2 : Nat), 1 - 2 * (g / 2 % 2 : Nat), 1 - 2 * (g % 2 : Nat)] : List Int).insertIdx (g / 8) 0)) ∧
  (∀ v : Vector Word64 4, (axisValues v).length = 4 ∧ ∀ a : Fin 4, (axisValues v)[a.val]? = some (fOfBits v[a])) ∧
  (∀ rd ra : Reg, hasEncoding (.sn2 rd ra) 0x69 .da ∧ hasEncoding (.sn3 rd ra) 0x6A .da ∧ hasEncoding (.sn4 rd ra) 0x6B .da) ∧
  ∀ (rd ra : Reg) (s : State),
    ∀ q ∈ [(Instr.sn2 rd ra, 2, Config.simplex.f2, s.simplexBase2), (.sn3 rd ra, 3, Config.simplex.f3, s.simplexBase3),
        (.sn4 rd ra, 4, Config.simplex.f4, s.simplexBase4)],
      ra.val + q.2.1 ≤ 16 → s.sbuilt = true →
        let x := s.group ra q.2.1
        let c := placeCoords x (axisValues s.sOff) (axisValues s.sScl)
        let oct := s.sOct.toInt
        (oct ≤ 0 → exec q.1 s = .next (s.onlyReg rd 0)) ∧
        (0 < oct → (∀ k < oct.toNat, simplexEvaluable q.2.2.1 (octaveCoords c k)) →
          ∃ v, blend q.2.2.2 x (axisValues s.sOff) (axisValues s.sScl) oct = some v ∧
            exec q.1 s = .next (s.onlyReg rd (fToBits v))) ∧
        (0 < oct → (∃ k < oct.toNat, ¬simplexEvaluable q.2.2.1 (octaveCoords c k)) →
          exec q.1 s = .next (s.raise .operand q.1))

/-- R266: the table entry of a comparison mask counts the comparisons that each axis wins, a tie going to the later axis, and is a
permutation of 0..3; the entries that no ordering of numbers reaches are all zero, and 24 are not. -/
def Obligations.RankCountsTheComparisonsWon : Prop :=
  (∀ x y z w : F64, x ≠ .nan → y ≠ .nan → z ≠ .nan → w ≠ .nan →
    let won := fun a b : F64 => (fLt b a).toNat
    let lost := fun a b : F64 => (!fLt b a).toNat
    rankMask x y z w = 32 * won x y + 16 * won x z + 8 * won y z + 4 * won x w + 2 * won y w + won z w ∧
    Config.rank (rankMask x y z w) =
      [won x y + won x z + won x w, lost x y + won y z + won y w,
       lost x z + lost y z + won z w, lost x w + lost y w + lost z w] ∧
    (Config.rank (rankMask x y z w)).Perm [0, 1, 2, 3]) ∧
  ((List.range 64).filter fun c => Config.rank c != [0, 0, 0, 0]).length = 24 ∧
  ∀ c < 64, (∀ x y z w : F64, x ≠ .nan → y ≠ .nan → z ≠ .nan → w ≠ .nan → rankMask x y z w ≠ c) →
    Config.rank c = [0, 0, 0, 0]

/-- `SMIP` (44_simplex.md section 3): a size that is not finite or not above 0 is refused; the loop over the halved sizes ends after
at most 1024 iterations; and the result is the sum of the weighted base values divided by the size, or `ERR_OPERAND` where some
iteration has a point without a cell. -/
def Obligations.SmipSumsItsScales : Prop :=
  (∀ rd ra : Reg, hasEncoding (.smip rd ra) 0x6C .da) ∧
  ∀ (rd ra : Reg) (s : State), ra.val + 4 ≤ 16 → s.sbuilt = true →
    let size := s.regF ra
    let p := [s.regF (ra + 1), s.regF (ra + 2), s.regF (ra + 3)]
    let i := Instr.smip rd ra
    let point := fun k => p.map fun v => fDiv v (mipScale size k)
    (¬(fFinite size = true ∧ fLt fZero size = true) → exec i s = .next (s.raise .operand i)) ∧
    (fFinite size = true → fLt fZero size = true →
      (∃ n ≤ 1024, fLe fOne (mipScale size n) = false) ∧
      ∀ n, fLe fOne (mipScale size n) = false → (∀ k < n, fLe fOne (mipScale size k) = true) →
        (∀ v : Nat → F64, (∀ k < n, s.simplexBase3 (point k) = some (v k)) →
          exec i s = .next (s.onlyReg rd (fToBits (fDiv
            ((List.range n).foldl (fun total k => fAdd total (fMul (v k) (mipScale size k))) fZero) size)))) ∧
        ((∃ k < n, s.simplexBase3 (point k) = none) → exec i s = .next (s.raise .operand i)) ∧
        ∀ k, s.simplexBase3 (point k) = none ↔ ¬simplexEvaluable Config.simplex.f3 (point k))

/-! Invariants. -/

/-- Every step keeps the buffer in its one form and within 4096 bytes, the cursor in 0..312, the frequency legal, the error code in
0..7, and `EINFO` 0 while no error is latched (10_state.md sections 4, 5, 6 and 9). -/
def Obligations.StepKeepsTheRegistersWellFormed : Prop :=
  ∀ s t : State, s.wf → step s = .next t → t.wf

/-- Every step keeps the invariants that the built Perlin tables have: lattice values in [0, 1), four permutations, each second half a
copy of the first (10_state.md section 6). -/
def Obligations.StepKeepsThePerlinTables : Prop :=
  ∀ s t : State, s.wf → s.perlinTablesOk → step s = .next t → t.perlinTablesOk

/-- Every step keeps the invariants that the built simplex tables have: the duplicate half and the two reductions (10_state.md
section 7). -/
def Obligations.StepKeepsTheSimplexTables : Prop :=
  ∀ s t : State, s.simplexTablesOk → step s = .next t → t.simplexTablesOk

/-- The state after reset has the three invariants (10_state.md section 12). -/
def Obligations.ResetHasTheInvariants : Prop :=
  State.reset.wf ∧ State.reset.perlinTablesOk ∧ State.reset.simplexTablesOk

/-! Frames: what a command leaves as it was. -/

/-- A command writes no operand register but its destination, for a fixed-point result a pair (10_state.md section 2), and nothing of
what the model keeps of the host (log 4). -/
def Obligations.OnlyDestinationRegistersChange : Prop :=
  ∀ (i : Instr) (s t : State), exec i s = .next t →
    (∀ k : Reg, k ∉ destRegs i → t.reg k = s.reg k) ∧ t.port = s.port ∧ t.rdata = s.rdata ∧ t.epoch = s.epoch

/-- Every byte of `BUF` that a command does not store to reads as before: `SAVE` stores the bytes 0..2539, `NBYTES` 0..count−1,
`NBYTESZ` 0..count, and no other command stores any (70_reset_and_hazards.md section 3). -/
def Obligations.OnlyStoredBytesChange : Prop :=
  ∀ (i : Instr) (s t : State), exec i s = .next t → ∀ a, storedBytes i s ≤ a → t.bufRead a = s.bufRead a

/-- The main generator moves only by a seeding or a draw, `SEEDED` is set only by a seeding, and each noise generator changes only by
its own commands; no command clears `SEEDED`, `PBUILT` or `SBUILT` (10_state.md sections 4, 6 and 7). -/
def Obligations.ComponentsChangeOnlyByTheirCommands : Prop :=
  ∀ (i : Instr) (s t : State), exec i s = .next t →
    (movesGenerator i = false → t.gen = s.gen) ∧
    (seedsGenerator i = false → t.seeded = s.seeded) ∧
    (configuresPerlin i = false → s.samePerlin t) ∧
    (configuresSimplex i = false → s.sameSimplex t) ∧
    (s.seeded = true → t.seeded = true) ∧ (s.pbuilt = true → t.pbuilt = true) ∧ (s.sbuilt = true → t.sbuilt = true)

/-- The evaluations of one generator read only its own tables and configuration: whatever the main generator, the buffer and the other
noise generator hold, the register takes the same value (10_state.md section 6, 43_octave_perlin.md section 1). -/
def Obligations.EvaluationsReadOnlyTheirOwnState : Prop :=
  ∀ (rd ra : Reg) (s t : State), s.ecode = t.ecode → s.r = t.r →
    (s.samePerlin t → ∀ i ∈ [Instr.pn1 rd ra, .pn2 rd ra, .pn3 rd ra, .pn4 rd ra],
      ∀ s' t', exec i s = .next s' → exec i t = .next t' → s'.r = t'.r ∧ s'.ecode = t'.ecode) ∧
    (s.sameSimplex t → ∀ i ∈ [Instr.sn2 rd ra, .sn3 rd ra, .sn4 rd ra, .smip rd ra],
      ∀ s' t', exec i s = .next s' → exec i t = .next t' → s'.r = t'.r ∧ s'.ecode = t'.ecode)
end

