-- ==== Sys2Proof/Laws/Decode.lean ====
section
/-! SUPPORT. The fields of a word and the word of the fields are inverse to each other, and so are register numbers, axes and
their fields. -/

namespace Sys2Proof

@[simp] theorem splitWord_joinFields (f : Fields) : splitWord (joinFields f) = f := by
  obtain ⟨op, rd, ra, rb, imm⟩ := f
  simp only [splitWord, joinFields, Fields.mk.injEq]
  refine ⟨?_, ?_, ?_, ?_, ?_⟩ <;> ext i hi <;> simp <;> grind

@[simp] theorem joinFields_splitWord (w : Word32) : joinFields (splitWord w) = w := by
  ext i hi
  simp only [splitWord, joinFields]
  grind

/-- Two words with the same fields are the same word. -/
theorem splitWord_injective {w v : Word32} (h : splitWord w = splitWord v) : w = v := by
  rw [← joinFields_splitWord w, h, joinFields_splitWord]

@[simp] theorem regOfField_fieldOfReg (k : Reg) : regOfField (fieldOfReg k) = k := rfl

@[simp] theorem fieldOfReg_regOfField (v : BitVec 4) : fieldOfReg (regOfField v) = v := rfl

@[simp] theorem axisOfImm_immOfAxis (a : Axis) : axisOfImm (immOfAxis a) = a := by cases a <;> decide

@[simp] theorem splitWord_encode (i : Instr) : splitWord (encode i) = i.fields := splitWord_joinFields _

end Sys2Proof
end

