-- ==== Sys2Proof/Laws/State.lean ====
section
/-! SUPPORT. The fields of a state after each named update: one lemma per field per update. -/

namespace Sys2Proof.Machine

variable (s : State)

/-! `setReg`. -/

@[simp] theorem State.setReg_r (k : Reg) (v : Word64) : (s.setReg k v).r = s.r.set k v := rfl
@[simp] theorem State.setReg_gen (k : Reg) (v : Word64) : (s.setReg k v).gen = s.gen := rfl
@[simp] theorem State.setReg_seeded (k : Reg) (v : Word64) : (s.setReg k v).seeded = s.seeded := rfl
@[simp] theorem State.setReg_pbuilt (k : Reg) (v : Word64) : (s.setReg k v).pbuilt = s.pbuilt := rfl
@[simp] theorem State.setReg_sbuilt (k : Reg) (v : Word64) : (s.setReg k v).sbuilt = s.sbuilt := rfl
@[simp] theorem State.setReg_ecode (k : Reg) (v : Word64) : (s.setReg k v).ecode = s.ecode := rfl
@[simp] theorem State.setReg_einfo (k : Reg) (v : Word64) : (s.setReg k v).einfo = s.einfo := rfl
@[simp] theorem State.setReg_pSeed (k : Reg) (v : Word64) : (s.setReg k v).pSeed = s.pSeed := rfl
@[simp] theorem State.setReg_pFreq (k : Reg) (v : Word64) : (s.setReg k v).pFreq = s.pFreq := rfl
@[simp] theorem State.setReg_pOct (k : Reg) (v : Word64) : (s.setReg k v).pOct = s.pOct := rfl
@[simp] theorem State.setReg_pOff (k : Reg) (v : Word64) : (s.setReg k v).pOff = s.pOff := rfl
@[simp] theorem State.setReg_pScl (k : Reg) (v : Word64) : (s.setReg k v).pScl = s.pScl := rfl
@[simp] theorem State.setReg_val (k : Reg) (v : Word64) : (s.setReg k v).val = s.val := rfl
@[simp] theorem State.setReg_perm (k : Reg) (v : Word64) : (s.setReg k v).perm = s.perm := rfl
@[simp] theorem State.setReg_sSeed (k : Reg) (v : Word64) : (s.setReg k v).sSeed = s.sSeed := rfl
@[simp] theorem State.setReg_sOct (k : Reg) (v : Word64) : (s.setReg k v).sOct = s.sOct := rfl
@[simp] theorem State.setReg_sOff (k : Reg) (v : Word64) : (s.setReg k v).sOff = s.sOff := rfl
@[simp] theorem State.setReg_sScl (k : Reg) (v : Word64) : (s.setReg k v).sScl = s.sScl := rfl
@[simp] theorem State.setReg_sp (k : Reg) (v : Word64) : (s.setReg k v).sp = s.sp := rfl
@[simp] theorem State.setReg_sm12 (k : Reg) (v : Word64) : (s.setReg k v).sm12 = s.sm12 := rfl
@[simp] theorem State.setReg_sm32 (k : Reg) (v : Word64) : (s.setReg k v).sm32 = s.sm32 := rfl
@[simp] theorem State.setReg_buf (k : Reg) (v : Word64) : (s.setReg k v).buf = s.buf := rfl
@[simp] theorem State.setReg_port (k : Reg) (v : Word64) : (s.setReg k v).port = s.port := rfl
@[simp] theorem State.setReg_rdata (k : Reg) (v : Word64) : (s.setReg k v).rdata = s.rdata := rfl
@[simp] theorem State.setReg_epoch (k : Reg) (v : Word64) : (s.setReg k v).epoch = s.epoch := rfl

/-! `setGen`. -/

@[simp] theorem State.setGen_r (g : Gen) : (s.setGen g).r = s.r := rfl
@[simp] theorem State.setGen_gen (g : Gen) : (s.setGen g).gen = g := rfl
@[simp] theorem State.setGen_seeded (g : Gen) : (s.setGen g).seeded = s.seeded := rfl
@[simp] theorem State.setGen_pbuilt (g : Gen) : (s.setGen g).pbuilt = s.pbuilt := rfl
@[simp] theorem State.setGen_sbuilt (g : Gen) : (s.setGen g).sbuilt = s.sbuilt := rfl
@[simp] theorem State.setGen_ecode (g : Gen) : (s.setGen g).ecode = s.ecode := rfl
@[simp] theorem State.setGen_einfo (g : Gen) : (s.setGen g).einfo = s.einfo := rfl
@[simp] theorem State.setGen_pSeed (g : Gen) : (s.setGen g).pSeed = s.pSeed := rfl
@[simp] theorem State.setGen_pFreq (g : Gen) : (s.setGen g).pFreq = s.pFreq := rfl
@[simp] theorem State.setGen_pOct (g : Gen) : (s.setGen g).pOct = s.pOct := rfl
@[simp] theorem State.setGen_pOff (g : Gen) : (s.setGen g).pOff = s.pOff := rfl
@[simp] theorem State.setGen_pScl (g : Gen) : (s.setGen g).pScl = s.pScl := rfl
@[simp] theorem State.setGen_val (g : Gen) : (s.setGen g).val = s.val := rfl
@[simp] theorem State.setGen_perm (g : Gen) : (s.setGen g).perm = s.perm := rfl
@[simp] theorem State.setGen_sSeed (g : Gen) : (s.setGen g).sSeed = s.sSeed := rfl
@[simp] theorem State.setGen_sOct (g : Gen) : (s.setGen g).sOct = s.sOct := rfl
@[simp] theorem State.setGen_sOff (g : Gen) : (s.setGen g).sOff = s.sOff := rfl
@[simp] theorem State.setGen_sScl (g : Gen) : (s.setGen g).sScl = s.sScl := rfl
@[simp] theorem State.setGen_sp (g : Gen) : (s.setGen g).sp = s.sp := rfl
@[simp] theorem State.setGen_sm12 (g : Gen) : (s.setGen g).sm12 = s.sm12 := rfl
@[simp] theorem State.setGen_sm32 (g : Gen) : (s.setGen g).sm32 = s.sm32 := rfl
@[simp] theorem State.setGen_buf (g : Gen) : (s.setGen g).buf = s.buf := rfl
@[simp] theorem State.setGen_port (g : Gen) : (s.setGen g).port = s.port := rfl
@[simp] theorem State.setGen_rdata (g : Gen) : (s.setGen g).rdata = s.rdata := rfl
@[simp] theorem State.setGen_epoch (g : Gen) : (s.setGen g).epoch = s.epoch := rfl

/-! `markSeeded`. -/

@[simp] theorem State.markSeeded_r : s.markSeeded.r = s.r := rfl
@[simp] theorem State.markSeeded_gen : s.markSeeded.gen = s.gen := rfl
@[simp] theorem State.markSeeded_seeded : s.markSeeded.seeded = true := rfl
@[simp] theorem State.markSeeded_pbuilt : s.markSeeded.pbuilt = s.pbuilt := rfl
@[simp] theorem State.markSeeded_sbuilt : s.markSeeded.sbuilt = s.sbuilt := rfl
@[simp] theorem State.markSeeded_ecode : s.markSeeded.ecode = s.ecode := rfl
@[simp] theorem State.markSeeded_einfo : s.markSeeded.einfo = s.einfo := rfl
@[simp] theorem State.markSeeded_pSeed : s.markSeeded.pSeed = s.pSeed := rfl
@[simp] theorem State.markSeeded_pFreq : s.markSeeded.pFreq = s.pFreq := rfl
@[simp] theorem State.markSeeded_pOct : s.markSeeded.pOct = s.pOct := rfl
@[simp] theorem State.markSeeded_pOff : s.markSeeded.pOff = s.pOff := rfl
@[simp] theorem State.markSeeded_pScl : s.markSeeded.pScl = s.pScl := rfl
@[simp] theorem State.markSeeded_val : s.markSeeded.val = s.val := rfl
@[simp] theorem State.markSeeded_perm : s.markSeeded.perm = s.perm := rfl
@[simp] theorem State.markSeeded_sSeed : s.markSeeded.sSeed = s.sSeed := rfl
@[simp] theorem State.markSeeded_sOct : s.markSeeded.sOct = s.sOct := rfl
@[simp] theorem State.markSeeded_sOff : s.markSeeded.sOff = s.sOff := rfl
@[simp] theorem State.markSeeded_sScl : s.markSeeded.sScl = s.sScl := rfl
@[simp] theorem State.markSeeded_sp : s.markSeeded.sp = s.sp := rfl
@[simp] theorem State.markSeeded_sm12 : s.markSeeded.sm12 = s.sm12 := rfl
@[simp] theorem State.markSeeded_sm32 : s.markSeeded.sm32 = s.sm32 := rfl
@[simp] theorem State.markSeeded_buf : s.markSeeded.buf = s.buf := rfl
@[simp] theorem State.markSeeded_port : s.markSeeded.port = s.port := rfl
@[simp] theorem State.markSeeded_rdata : s.markSeeded.rdata = s.rdata := rfl
@[simp] theorem State.markSeeded_epoch : s.markSeeded.epoch = s.epoch := rfl

/-! `storeBytes`. -/

@[simp] theorem State.storeBytes_r (addr : Nat) (bs : List Byte) : (s.storeBytes addr bs).r = s.r := rfl
@[simp] theorem State.storeBytes_gen (addr : Nat) (bs : List Byte) : (s.storeBytes addr bs).gen = s.gen := rfl
@[simp] theorem State.storeBytes_seeded (addr : Nat) (bs : List Byte) : (s.storeBytes addr bs).seeded = s.seeded := rfl
@[simp] theorem State.storeBytes_pbuilt (addr : Nat) (bs : List Byte) : (s.storeBytes addr bs).pbuilt = s.pbuilt := rfl
@[simp] theorem State.storeBytes_sbuilt (addr : Nat) (bs : List Byte) : (s.storeBytes addr bs).sbuilt = s.sbuilt := rfl
@[simp] theorem State.storeBytes_ecode (addr : Nat) (bs : List Byte) : (s.storeBytes addr bs).ecode = s.ecode := rfl
@[simp] theorem State.storeBytes_einfo (addr : Nat) (bs : List Byte) : (s.storeBytes addr bs).einfo = s.einfo := rfl
@[simp] theorem State.storeBytes_pSeed (addr : Nat) (bs : List Byte) : (s.storeBytes addr bs).pSeed = s.pSeed := rfl
@[simp] theorem State.storeBytes_pFreq (addr : Nat) (bs : List Byte) : (s.storeBytes addr bs).pFreq = s.pFreq := rfl
@[simp] theorem State.storeBytes_pOct (addr : Nat) (bs : List Byte) : (s.storeBytes addr bs).pOct = s.pOct := rfl
@[simp] theorem State.storeBytes_pOff (addr : Nat) (bs : List Byte) : (s.storeBytes addr bs).pOff = s.pOff := rfl
@[simp] theorem State.storeBytes_pScl (addr : Nat) (bs : List Byte) : (s.storeBytes addr bs).pScl = s.pScl := rfl
@[simp] theorem State.storeBytes_val (addr : Nat) (bs : List Byte) : (s.storeBytes addr bs).val = s.val := rfl
@[simp] theorem State.storeBytes_perm (addr : Nat) (bs : List Byte) : (s.storeBytes addr bs).perm = s.perm := rfl
@[simp] theorem State.storeBytes_sSeed (addr : Nat) (bs : List Byte) : (s.storeBytes addr bs).sSeed = s.sSeed := rfl
@[simp] theorem State.storeBytes_sOct (addr : Nat) (bs : List Byte) : (s.storeBytes addr bs).sOct = s.sOct := rfl
@[simp] theorem State.storeBytes_sOff (addr : Nat) (bs : List Byte) : (s.storeBytes addr bs).sOff = s.sOff := rfl
@[simp] theorem State.storeBytes_sScl (addr : Nat) (bs : List Byte) : (s.storeBytes addr bs).sScl = s.sScl := rfl
@[simp] theorem State.storeBytes_sp (addr : Nat) (bs : List Byte) : (s.storeBytes addr bs).sp = s.sp := rfl
@[simp] theorem State.storeBytes_sm12 (addr : Nat) (bs : List Byte) : (s.storeBytes addr bs).sm12 = s.sm12 := rfl
@[simp] theorem State.storeBytes_sm32 (addr : Nat) (bs : List Byte) : (s.storeBytes addr bs).sm32 = s.sm32 := rfl
@[simp] theorem State.storeBytes_buf (addr : Nat) (bs : List Byte) : (s.storeBytes addr bs).buf = Memory.store s.buf addr bs := rfl
@[simp] theorem State.storeBytes_port (addr : Nat) (bs : List Byte) : (s.storeBytes addr bs).port = s.port := rfl
@[simp] theorem State.storeBytes_rdata (addr : Nat) (bs : List Byte) : (s.storeBytes addr bs).rdata = s.rdata := rfl
@[simp] theorem State.storeBytes_epoch (addr : Nat) (bs : List Byte) : (s.storeBytes addr bs).epoch = s.epoch := rfl

/-! `clearError`. -/

@[simp] theorem State.clearError_r : s.clearError.r = s.r := rfl
@[simp] theorem State.clearError_gen : s.clearError.gen = s.gen := rfl
@[simp] theorem State.clearError_seeded : s.clearError.seeded = s.seeded := rfl
@[simp] theorem State.clearError_pbuilt : s.clearError.pbuilt = s.pbuilt := rfl
@[simp] theorem State.clearError_sbuilt : s.clearError.sbuilt = s.sbuilt := rfl
@[simp] theorem State.clearError_ecode : s.clearError.ecode = 0 := rfl
@[simp] theorem State.clearError_einfo : s.clearError.einfo = 0 := rfl
@[simp] theorem State.clearError_pSeed : s.clearError.pSeed = s.pSeed := rfl
@[simp] theorem State.clearError_pFreq : s.clearError.pFreq = s.pFreq := rfl
@[simp] theorem State.clearError_pOct : s.clearError.pOct = s.pOct := rfl
@[simp] theorem State.clearError_pOff : s.clearError.pOff = s.pOff := rfl
@[simp] theorem State.clearError_pScl : s.clearError.pScl = s.pScl := rfl
@[simp] theorem State.clearError_val : s.clearError.val = s.val := rfl
@[simp] theorem State.clearError_perm : s.clearError.perm = s.perm := rfl
@[simp] theorem State.clearError_sSeed : s.clearError.sSeed = s.sSeed := rfl
@[simp] theorem State.clearError_sOct : s.clearError.sOct = s.sOct := rfl
@[simp] theorem State.clearError_sOff : s.clearError.sOff = s.sOff := rfl
@[simp] theorem State.clearError_sScl : s.clearError.sScl = s.sScl := rfl
@[simp] theorem State.clearError_sp : s.clearError.sp = s.sp := rfl
@[simp] theorem State.clearError_sm12 : s.clearError.sm12 = s.sm12 := rfl
@[simp] theorem State.clearError_sm32 : s.clearError.sm32 = s.sm32 := rfl
@[simp] theorem State.clearError_buf : s.clearError.buf = s.buf := rfl
@[simp] theorem State.clearError_port : s.clearError.port = s.port := rfl
@[simp] theorem State.clearError_rdata : s.clearError.rdata = s.rdata := rfl
@[simp] theorem State.clearError_epoch : s.clearError.epoch = s.epoch := rfl

/-! `withError`. -/

@[simp] theorem State.withError_r (e : Err) (i : Instr) : (s.withError e i).r = s.r := rfl
@[simp] theorem State.withError_gen (e : Err) (i : Instr) : (s.withError e i).gen = s.gen := rfl
@[simp] theorem State.withError_seeded (e : Err) (i : Instr) : (s.withError e i).seeded = s.seeded := rfl
@[simp] theorem State.withError_pbuilt (e : Err) (i : Instr) : (s.withError e i).pbuilt = s.pbuilt := rfl
@[simp] theorem State.withError_sbuilt (e : Err) (i : Instr) : (s.withError e i).sbuilt = s.sbuilt := rfl
@[simp] theorem State.withError_ecode (e : Err) (i : Instr) : (s.withError e i).ecode = e.code := rfl
@[simp] theorem State.withError_einfo (e : Err) (i : Instr) : (s.withError e i).einfo = (encode i).setWidth 64 := rfl
@[simp] theorem State.withError_pSeed (e : Err) (i : Instr) : (s.withError e i).pSeed = s.pSeed := rfl
@[simp] theorem State.withError_pFreq (e : Err) (i : Instr) : (s.withError e i).pFreq = s.pFreq := rfl
@[simp] theorem State.withError_pOct (e : Err) (i : Instr) : (s.withError e i).pOct = s.pOct := rfl
@[simp] theorem State.withError_pOff (e : Err) (i : Instr) : (s.withError e i).pOff = s.pOff := rfl
@[simp] theorem State.withError_pScl (e : Err) (i : Instr) : (s.withError e i).pScl = s.pScl := rfl
@[simp] theorem State.withError_val (e : Err) (i : Instr) : (s.withError e i).val = s.val := rfl
@[simp] theorem State.withError_perm (e : Err) (i : Instr) : (s.withError e i).perm = s.perm := rfl
@[simp] theorem State.withError_sSeed (e : Err) (i : Instr) : (s.withError e i).sSeed = s.sSeed := rfl
@[simp] theorem State.withError_sOct (e : Err) (i : Instr) : (s.withError e i).sOct = s.sOct := rfl
@[simp] theorem State.withError_sOff (e : Err) (i : Instr) : (s.withError e i).sOff = s.sOff := rfl
@[simp] theorem State.withError_sScl (e : Err) (i : Instr) : (s.withError e i).sScl = s.sScl := rfl
@[simp] theorem State.withError_sp (e : Err) (i : Instr) : (s.withError e i).sp = s.sp := rfl
@[simp] theorem State.withError_sm12 (e : Err) (i : Instr) : (s.withError e i).sm12 = s.sm12 := rfl
@[simp] theorem State.withError_sm32 (e : Err) (i : Instr) : (s.withError e i).sm32 = s.sm32 := rfl
@[simp] theorem State.withError_buf (e : Err) (i : Instr) : (s.withError e i).buf = s.buf := rfl
@[simp] theorem State.withError_port (e : Err) (i : Instr) : (s.withError e i).port = s.port := rfl
@[simp] theorem State.withError_rdata (e : Err) (i : Instr) : (s.withError e i).rdata = s.rdata := rfl
@[simp] theorem State.withError_epoch (e : Err) (i : Instr) : (s.withError e i).epoch = s.epoch := rfl

/-! `drawnInto`. -/

@[simp] theorem State.drawnInto_r (rd : Reg) (v : Word64) : (s.drawnInto rd v).r = s.r.set rd v := rfl
@[simp] theorem State.drawnInto_gen (rd : Reg) (v : Word64) : (s.drawnInto rd v).gen = (nextWord s.gen).2 := rfl
@[simp] theorem State.drawnInto_seeded (rd : Reg) (v : Word64) : (s.drawnInto rd v).seeded = s.seeded := rfl
@[simp] theorem State.drawnInto_pbuilt (rd : Reg) (v : Word64) : (s.drawnInto rd v).pbuilt = s.pbuilt := rfl
@[simp] theorem State.drawnInto_sbuilt (rd : Reg) (v : Word64) : (s.drawnInto rd v).sbuilt = s.sbuilt := rfl
@[simp] theorem State.drawnInto_ecode (rd : Reg) (v : Word64) : (s.drawnInto rd v).ecode = s.ecode := rfl
@[simp] theorem State.drawnInto_einfo (rd : Reg) (v : Word64) : (s.drawnInto rd v).einfo = s.einfo := rfl
@[simp] theorem State.drawnInto_pSeed (rd : Reg) (v : Word64) : (s.drawnInto rd v).pSeed = s.pSeed := rfl
@[simp] theorem State.drawnInto_pFreq (rd : Reg) (v : Word64) : (s.drawnInto rd v).pFreq = s.pFreq := rfl
@[simp] theorem State.drawnInto_pOct (rd : Reg) (v : Word64) : (s.drawnInto rd v).pOct = s.pOct := rfl
@[simp] theorem State.drawnInto_pOff (rd : Reg) (v : Word64) : (s.drawnInto rd v).pOff = s.pOff := rfl
@[simp] theorem State.drawnInto_pScl (rd : Reg) (v : Word64) : (s.drawnInto rd v).pScl = s.pScl := rfl
@[simp] theorem State.drawnInto_val (rd : Reg) (v : Word64) : (s.drawnInto rd v).val = s.val := rfl
@[simp] theorem State.drawnInto_perm (rd : Reg) (v : Word64) : (s.drawnInto rd v).perm = s.perm := rfl
@[simp] theorem State.drawnInto_sSeed (rd : Reg) (v : Word64) : (s.drawnInto rd v).sSeed = s.sSeed := rfl
@[simp] theorem State.drawnInto_sOct (rd : Reg) (v : Word64) : (s.drawnInto rd v).sOct = s.sOct := rfl
@[simp] theorem State.drawnInto_sOff (rd : Reg) (v : Word64) : (s.drawnInto rd v).sOff = s.sOff := rfl
@[simp] theorem State.drawnInto_sScl (rd : Reg) (v : Word64) : (s.drawnInto rd v).sScl = s.sScl := rfl
@[simp] theorem State.drawnInto_sp (rd : Reg) (v : Word64) : (s.drawnInto rd v).sp = s.sp := rfl
@[simp] theorem State.drawnInto_sm12 (rd : Reg) (v : Word64) : (s.drawnInto rd v).sm12 = s.sm12 := rfl
@[simp] theorem State.drawnInto_sm32 (rd : Reg) (v : Word64) : (s.drawnInto rd v).sm32 = s.sm32 := rfl
@[simp] theorem State.drawnInto_buf (rd : Reg) (v : Word64) : (s.drawnInto rd v).buf = s.buf := rfl
@[simp] theorem State.drawnInto_port (rd : Reg) (v : Word64) : (s.drawnInto rd v).port = s.port := rfl
@[simp] theorem State.drawnInto_rdata (rd : Reg) (v : Word64) : (s.drawnInto rd v).rdata = s.rdata := rfl
@[simp] theorem State.drawnInto_epoch (rd : Reg) (v : Word64) : (s.drawnInto rd v).epoch = s.epoch := rfl

/-! `onlyReg`. -/

@[simp] theorem State.onlyReg_r (rd : Reg) (v : Word64) : (s.onlyReg rd v).r = s.r.set rd v := rfl
@[simp] theorem State.onlyReg_gen (rd : Reg) (v : Word64) : (s.onlyReg rd v).gen = s.gen := rfl
@[simp] theorem State.onlyReg_seeded (rd : Reg) (v : Word64) : (s.onlyReg rd v).seeded = s.seeded := rfl
@[simp] theorem State.onlyReg_pbuilt (rd : Reg) (v : Word64) : (s.onlyReg rd v).pbuilt = s.pbuilt := rfl
@[simp] theorem State.onlyReg_sbuilt (rd : Reg) (v : Word64) : (s.onlyReg rd v).sbuilt = s.sbuilt := rfl
@[simp] theorem State.onlyReg_ecode (rd : Reg) (v : Word64) : (s.onlyReg rd v).ecode = s.ecode := rfl
@[simp] theorem State.onlyReg_einfo (rd : Reg) (v : Word64) : (s.onlyReg rd v).einfo = s.einfo := rfl
@[simp] theorem State.onlyReg_pSeed (rd : Reg) (v : Word64) : (s.onlyReg rd v).pSeed = s.pSeed := rfl
@[simp] theorem State.onlyReg_pFreq (rd : Reg) (v : Word64) : (s.onlyReg rd v).pFreq = s.pFreq := rfl
@[simp] theorem State.onlyReg_pOct (rd : Reg) (v : Word64) : (s.onlyReg rd v).pOct = s.pOct := rfl
@[simp] theorem State.onlyReg_pOff (rd : Reg) (v : Word64) : (s.onlyReg rd v).pOff = s.pOff := rfl
@[simp] theorem State.onlyReg_pScl (rd : Reg) (v : Word64) : (s.onlyReg rd v).pScl = s.pScl := rfl
@[simp] theorem State.onlyReg_val (rd : Reg) (v : Word64) : (s.onlyReg rd v).val = s.val := rfl
@[simp] theorem State.onlyReg_perm (rd : Reg) (v : Word64) : (s.onlyReg rd v).perm = s.perm := rfl
@[simp] theorem State.onlyReg_sSeed (rd : Reg) (v : Word64) : (s.onlyReg rd v).sSeed = s.sSeed := rfl
@[simp] theorem State.onlyReg_sOct (rd : Reg) (v : Word64) : (s.onlyReg rd v).sOct = s.sOct := rfl
@[simp] theorem State.onlyReg_sOff (rd : Reg) (v : Word64) : (s.onlyReg rd v).sOff = s.sOff := rfl
@[simp] theorem State.onlyReg_sScl (rd : Reg) (v : Word64) : (s.onlyReg rd v).sScl = s.sScl := rfl
@[simp] theorem State.onlyReg_sp (rd : Reg) (v : Word64) : (s.onlyReg rd v).sp = s.sp := rfl
@[simp] theorem State.onlyReg_sm12 (rd : Reg) (v : Word64) : (s.onlyReg rd v).sm12 = s.sm12 := rfl
@[simp] theorem State.onlyReg_sm32 (rd : Reg) (v : Word64) : (s.onlyReg rd v).sm32 = s.sm32 := rfl
@[simp] theorem State.onlyReg_buf (rd : Reg) (v : Word64) : (s.onlyReg rd v).buf = s.buf := rfl
@[simp] theorem State.onlyReg_port (rd : Reg) (v : Word64) : (s.onlyReg rd v).port = s.port := rfl
@[simp] theorem State.onlyReg_rdata (rd : Reg) (v : Word64) : (s.onlyReg rd v).rdata = s.rdata := rfl
@[simp] theorem State.onlyReg_epoch (rd : Reg) (v : Word64) : (s.onlyReg rd v).epoch = s.epoch := rfl

/-! `takeAccess`. -/

@[simp] theorem State.takeAccess_r : s.takeAccess.r = s.r := rfl
@[simp] theorem State.takeAccess_gen : s.takeAccess.gen = s.gen := rfl
@[simp] theorem State.takeAccess_seeded : s.takeAccess.seeded = s.seeded := rfl
@[simp] theorem State.takeAccess_pbuilt : s.takeAccess.pbuilt = s.pbuilt := rfl
@[simp] theorem State.takeAccess_sbuilt : s.takeAccess.sbuilt = s.sbuilt := rfl
@[simp] theorem State.takeAccess_ecode : s.takeAccess.ecode = s.ecode := rfl
@[simp] theorem State.takeAccess_einfo : s.takeAccess.einfo = s.einfo := rfl
@[simp] theorem State.takeAccess_pSeed : s.takeAccess.pSeed = s.pSeed := rfl
@[simp] theorem State.takeAccess_pFreq : s.takeAccess.pFreq = s.pFreq := rfl
@[simp] theorem State.takeAccess_pOct : s.takeAccess.pOct = s.pOct := rfl
@[simp] theorem State.takeAccess_pOff : s.takeAccess.pOff = s.pOff := rfl
@[simp] theorem State.takeAccess_pScl : s.takeAccess.pScl = s.pScl := rfl
@[simp] theorem State.takeAccess_val : s.takeAccess.val = s.val := rfl
@[simp] theorem State.takeAccess_perm : s.takeAccess.perm = s.perm := rfl
@[simp] theorem State.takeAccess_sSeed : s.takeAccess.sSeed = s.sSeed := rfl
@[simp] theorem State.takeAccess_sOct : s.takeAccess.sOct = s.sOct := rfl
@[simp] theorem State.takeAccess_sOff : s.takeAccess.sOff = s.sOff := rfl
@[simp] theorem State.takeAccess_sScl : s.takeAccess.sScl = s.sScl := rfl
@[simp] theorem State.takeAccess_sp : s.takeAccess.sp = s.sp := rfl
@[simp] theorem State.takeAccess_sm12 : s.takeAccess.sm12 = s.sm12 := rfl
@[simp] theorem State.takeAccess_sm32 : s.takeAccess.sm32 = s.sm32 := rfl
@[simp] theorem State.takeAccess_buf : s.takeAccess.buf = s.buf := rfl
@[simp] theorem State.takeAccess_port : s.takeAccess.port = s.port.tail := rfl
@[simp] theorem State.takeAccess_rdata : s.takeAccess.rdata = s.rdata := rfl
@[simp] theorem State.takeAccess_epoch : s.takeAccess.epoch = s.epoch := rfl

/-! `latch` and the two builds. -/

/-- With no error latched, taking an error writes the latch and nothing else (R303). -/
theorem State.latch_of_clear {s : State} (h : s.ecode = 0) (e : Err) (info : Word64) :
    s.latch e info = { s with ecode := e.code, einfo := info } := if_pos h

/-- With an error latched, nothing is written (R302). -/
theorem State.latch_of_set {s : State} (h : s.ecode ≠ 0) (e : Err) (info : Word64) : s.latch e info = s :=
  if_neg h

/-- An error of a command in a state without a latched error. -/
theorem State.raise_of_clear {s : State} (h : s.ecode = 0) (e : Err) (i : Instr) : s.raise e i = s.withError e i :=
  State.latch_of_clear h e _

@[simp] theorem State.latch_r (e : Err) (info : Word64) : (s.latch e info).r = s.r := by
  unfold State.latch; split <;> rfl
@[simp] theorem State.latch_gen (e : Err) (info : Word64) : (s.latch e info).gen = s.gen := by
  unfold State.latch; split <;> rfl
@[simp] theorem State.latch_seeded (e : Err) (info : Word64) : (s.latch e info).seeded = s.seeded := by
  unfold State.latch; split <;> rfl
@[simp] theorem State.latch_pbuilt (e : Err) (info : Word64) : (s.latch e info).pbuilt = s.pbuilt := by
  unfold State.latch; split <;> rfl
@[simp] theorem State.latch_sbuilt (e : Err) (info : Word64) : (s.latch e info).sbuilt = s.sbuilt := by
  unfold State.latch; split <;> rfl
@[simp] theorem State.latch_pSeed (e : Err) (info : Word64) : (s.latch e info).pSeed = s.pSeed := by
  unfold State.latch; split <;> rfl
@[simp] theorem State.latch_pFreq (e : Err) (info : Word64) : (s.latch e info).pFreq = s.pFreq := by
  unfold State.latch; split <;> rfl
@[simp] theorem State.latch_pOct (e : Err) (info : Word64) : (s.latch e info).pOct = s.pOct := by
  unfold State.latch; split <;> rfl
@[simp] theorem State.latch_pOff (e : Err) (info : Word64) : (s.latch e info).pOff = s.pOff := by
  unfold State.latch; split <;> rfl
@[simp] theorem State.latch_pScl (e : Err) (info : Word64) : (s.latch e info).pScl = s.pScl := by
  unfold State.latch; split <;> rfl
@[simp] theorem State.latch_val (e : Err) (info : Word64) : (s.latch e info).val = s.val := by
  unfold State.latch; split <;> rfl
@[simp] theorem State.latch_perm (e : Err) (info : Word64) : (s.latch e info).perm = s.perm := by
  unfold State.latch; split <;> rfl
@[simp] theorem State.latch_sSeed (e : Err) (info : Word64) : (s.latch e info).sSeed = s.sSeed := by
  unfold State.latch; split <;> rfl
@[simp] theorem State.latch_sOct (e : Err) (info : Word64) : (s.latch e info).sOct = s.sOct := by
  unfold State.latch; split <;> rfl
@[simp] theorem State.latch_sOff (e : Err) (info : Word64) : (s.latch e info).sOff = s.sOff := by
  unfold State.latch; split <;> rfl
@[simp] theorem State.latch_sScl (e : Err) (info : Word64) : (s.latch e info).sScl = s.sScl := by
  unfold State.latch; split <;> rfl
@[simp] theorem State.latch_sp (e : Err) (info : Word64) : (s.latch e info).sp = s.sp := by
  unfold State.latch; split <;> rfl
@[simp] theorem State.latch_sm12 (e : Err) (info : Word64) : (s.latch e info).sm12 = s.sm12 := by
  unfold State.latch; split <;> rfl
@[simp] theorem State.latch_sm32 (e : Err) (info : Word64) : (s.latch e info).sm32 = s.sm32 := by
  unfold State.latch; split <;> rfl
@[simp] theorem State.latch_buf (e : Err) (info : Word64) : (s.latch e info).buf = s.buf := by
  unfold State.latch; split <;> rfl
@[simp] theorem State.latch_port (e : Err) (info : Word64) : (s.latch e info).port = s.port := by
  unfold State.latch; split <;> rfl
@[simp] theorem State.latch_rdata (e : Err) (info : Word64) : (s.latch e info).rdata = s.rdata := by
  unfold State.latch; split <;> rfl
@[simp] theorem State.latch_epoch (e : Err) (info : Word64) : (s.latch e info).epoch = s.epoch := by
  unfold State.latch; split <;> rfl

@[simp] theorem State.raise_r (e : Err) (i : Instr) : (s.raise e i).r = s.r := State.latch_r s e _
@[simp] theorem State.raise_gen (e : Err) (i : Instr) : (s.raise e i).gen = s.gen := State.latch_gen s e _
@[simp] theorem State.raise_seeded (e : Err) (i : Instr) : (s.raise e i).seeded = s.seeded := State.latch_seeded s e _
@[simp] theorem State.raise_pbuilt (e : Err) (i : Instr) : (s.raise e i).pbuilt = s.pbuilt := State.latch_pbuilt s e _
@[simp] theorem State.raise_sbuilt (e : Err) (i : Instr) : (s.raise e i).sbuilt = s.sbuilt := State.latch_sbuilt s e _
@[simp] theorem State.raise_pSeed (e : Err) (i : Instr) : (s.raise e i).pSeed = s.pSeed := State.latch_pSeed s e _
@[simp] theorem State.raise_pFreq (e : Err) (i : Instr) : (s.raise e i).pFreq = s.pFreq := State.latch_pFreq s e _
@[simp] theorem State.raise_pOct (e : Err) (i : Instr) : (s.raise e i).pOct = s.pOct := State.latch_pOct s e _
@[simp] theorem State.raise_pOff (e : Err) (i : Instr) : (s.raise e i).pOff = s.pOff := State.latch_pOff s e _
@[simp] theorem State.raise_pScl (e : Err) (i : Instr) : (s.raise e i).pScl = s.pScl := State.latch_pScl s e _
@[simp] theorem State.raise_val (e : Err) (i : Instr) : (s.raise e i).val = s.val := State.latch_val s e _
@[simp] theorem State.raise_perm (e : Err) (i : Instr) : (s.raise e i).perm = s.perm := State.latch_perm s e _
@[simp] theorem State.raise_sSeed (e : Err) (i : Instr) : (s.raise e i).sSeed = s.sSeed := State.latch_sSeed s e _
@[simp] theorem State.raise_sOct (e : Err) (i : Instr) : (s.raise e i).sOct = s.sOct := State.latch_sOct s e _
@[simp] theorem State.raise_sOff (e : Err) (i : Instr) : (s.raise e i).sOff = s.sOff := State.latch_sOff s e _
@[simp] theorem State.raise_sScl (e : Err) (i : Instr) : (s.raise e i).sScl = s.sScl := State.latch_sScl s e _
@[simp] theorem State.raise_sp (e : Err) (i : Instr) : (s.raise e i).sp = s.sp := State.latch_sp s e _
@[simp] theorem State.raise_sm12 (e : Err) (i : Instr) : (s.raise e i).sm12 = s.sm12 := State.latch_sm12 s e _
@[simp] theorem State.raise_sm32 (e : Err) (i : Instr) : (s.raise e i).sm32 = s.sm32 := State.latch_sm32 s e _
@[simp] theorem State.raise_buf (e : Err) (i : Instr) : (s.raise e i).buf = s.buf := State.latch_buf s e _
@[simp] theorem State.raise_port (e : Err) (i : Instr) : (s.raise e i).port = s.port := State.latch_port s e _
@[simp] theorem State.raise_rdata (e : Err) (i : Instr) : (s.raise e i).rdata = s.rdata := State.latch_rdata s e _
@[simp] theorem State.raise_epoch (e : Err) (i : Instr) : (s.raise e i).epoch = s.epoch := State.latch_epoch s e _

@[simp] theorem State.perlinBuild_r : s.perlinBuild.r = s.r := rfl
@[simp] theorem State.perlinBuild_gen : s.perlinBuild.gen = s.gen := rfl
@[simp] theorem State.perlinBuild_seeded : s.perlinBuild.seeded = s.seeded := rfl
@[simp] theorem State.perlinBuild_pbuilt : s.perlinBuild.pbuilt = true := rfl
@[simp] theorem State.perlinBuild_sbuilt : s.perlinBuild.sbuilt = s.sbuilt := rfl
@[simp] theorem State.perlinBuild_ecode : s.perlinBuild.ecode = s.ecode := rfl
@[simp] theorem State.perlinBuild_einfo : s.perlinBuild.einfo = s.einfo := rfl
@[simp] theorem State.perlinBuild_pSeed : s.perlinBuild.pSeed = s.pSeed := rfl
@[simp] theorem State.perlinBuild_pFreq : s.perlinBuild.pFreq = s.pFreq := rfl
@[simp] theorem State.perlinBuild_pOct : s.perlinBuild.pOct = s.pOct := rfl
@[simp] theorem State.perlinBuild_pOff : s.perlinBuild.pOff = s.pOff := rfl
@[simp] theorem State.perlinBuild_pScl : s.perlinBuild.pScl = s.pScl := rfl
@[simp] theorem State.perlinBuild_sSeed : s.perlinBuild.sSeed = s.sSeed := rfl
@[simp] theorem State.perlinBuild_sOct : s.perlinBuild.sOct = s.sOct := rfl
@[simp] theorem State.perlinBuild_sOff : s.perlinBuild.sOff = s.sOff := rfl
@[simp] theorem State.perlinBuild_sScl : s.perlinBuild.sScl = s.sScl := rfl
@[simp] theorem State.perlinBuild_sp : s.perlinBuild.sp = s.sp := rfl
@[simp] theorem State.perlinBuild_sm12 : s.perlinBuild.sm12 = s.sm12 := rfl
@[simp] theorem State.perlinBuild_sm32 : s.perlinBuild.sm32 = s.sm32 := rfl
@[simp] theorem State.perlinBuild_buf : s.perlinBuild.buf = s.buf := rfl
@[simp] theorem State.perlinBuild_port : s.perlinBuild.port = s.port := rfl
@[simp] theorem State.perlinBuild_rdata : s.perlinBuild.rdata = s.rdata := rfl
@[simp] theorem State.perlinBuild_epoch : s.perlinBuild.epoch = s.epoch := rfl

@[simp] theorem State.simplexBuild_r : s.simplexBuild.r = s.r := rfl
@[simp] theorem State.simplexBuild_gen : s.simplexBuild.gen = s.gen := rfl
@[simp] theorem State.simplexBuild_seeded : s.simplexBuild.seeded = s.seeded := rfl
@[simp] theorem State.simplexBuild_pbuilt : s.simplexBuild.pbuilt = s.pbuilt := rfl
@[simp] theorem State.simplexBuild_sbuilt : s.simplexBuild.sbuilt = true := rfl
@[simp] theorem State.simplexBuild_ecode : s.simplexBuild.ecode = s.ecode := rfl
@[simp] theorem State.simplexBuild_einfo : s.simplexBuild.einfo = s.einfo := rfl
@[simp] theorem State.simplexBuild_pSeed : s.simplexBuild.pSeed = s.pSeed := rfl
@[simp] theorem State.simplexBuild_pFreq : s.simplexBuild.pFreq = s.pFreq := rfl
@[simp] theorem State.simplexBuild_pOct : s.simplexBuild.pOct = s.pOct := rfl
@[simp] theorem State.simplexBuild_pOff : s.simplexBuild.pOff = s.pOff := rfl
@[simp] theorem State.simplexBuild_pScl : s.simplexBuild.pScl = s.pScl := rfl
@[simp] theorem State.simplexBuild_val : s.simplexBuild.val = s.val := rfl
@[simp] theorem State.simplexBuild_perm : s.simplexBuild.perm = s.perm := rfl
@[simp] theorem State.simplexBuild_sSeed : s.simplexBuild.sSeed = s.sSeed := rfl
@[simp] theorem State.simplexBuild_sOct : s.simplexBuild.sOct = s.sOct := rfl
@[simp] theorem State.simplexBuild_sOff : s.simplexBuild.sOff = s.sOff := rfl
@[simp] theorem State.simplexBuild_sScl : s.simplexBuild.sScl = s.sScl := rfl
@[simp] theorem State.simplexBuild_buf : s.simplexBuild.buf = s.buf := rfl
@[simp] theorem State.simplexBuild_port : s.simplexBuild.port = s.port := rfl
@[simp] theorem State.simplexBuild_rdata : s.simplexBuild.rdata = s.rdata := rfl
@[simp] theorem State.simplexBuild_epoch : s.simplexBuild.epoch = s.epoch := rfl

end Sys2Proof.Machine
end

