-- ==== Sys2Proof/Laws/Memory.lean ====
section
/-! SUPPORT. The laws of the buffer memory: what a read sees after a write, and that every write keeps the one form. -/

namespace Sys2Proof.Machine

/-- A filter on addresses does not change what a read at a kept address finds. -/
theorem Memory.lookup_filter_of_pos (p : Nat → Bool) {a : Nat} (h : p a = true) (m : List Host.Cell) :
    (m.filter fun c => p c.1).lookup a = m.lookup a := by
  induction m with
  | nil => rfl
  | cons c m ih =>
    obtain ⟨b, v⟩ := c
    by_cases ha : a = b
    · subst ha; simp [h]
    · have hb : (a == b) = false := by simpa using ha
      by_cases hc : p b = true <;> simp [hc, List.lookup_cons, hb, ih]

/-- A read at an address that the filter drops finds nothing. -/
theorem Memory.lookup_filter_of_neg (p : Nat → Bool) {a : Nat} (h : p a = false) (m : List Host.Cell) :
    (m.filter fun c => p c.1).lookup a = none := by
  rw [List.lookup_eq_none_iff]
  rintro ⟨b, v⟩ hb
  have := (List.mem_filter.1 hb).2
  simp only [bne_iff_ne, ne_eq]
  rintro rfl
  simp_all

/-- What consecutive bytes put at `addr` hold. -/
theorem Memory.lookup_mapIdx (bs : List Byte) (addr a : Nat) :
    (bs.mapIdx fun k b => (addr + k, b)).lookup a = if addr ≤ a then bs[a - addr]? else none := by
  induction bs generalizing addr with
  | nil => simp
  | cons b bs ih =>
    have := ih (addr + 1)
    simp only [List.mapIdx_cons, Nat.add_zero, List.lookup_cons]
    rw [show (List.mapIdx (fun i b => (addr + (i + 1), b)) bs) = List.mapIdx (fun k b => (addr + 1 + k, b)) bs by
      congr; funext i b; rw [Nat.add_right_comm, Nat.add_assoc], this]
    by_cases h : a = addr
    · subst h; simp
    · have hb : (a == addr) = false := by simpa using h
      rw [hb]
      by_cases h2 : addr ≤ a
      · obtain ⟨d, rfl⟩ : ∃ d, a = addr + 1 + d := ⟨a - (addr + 1), by omega⟩
        rw [if_pos (by omega), if_pos h2, show addr + 1 + d - addr = d + 1 by omega, show addr + 1 + d - (addr + 1) = d by omega]
        rfl
      · rw [if_neg (by omega), if_neg h2]

/-- A read after a write: the bytes written where they were written, and everywhere else what was there (R67). -/
theorem Memory.read?_store (m : List Host.Cell) (addr : Nat) (bs : List Byte) (a : Nat) :
    Memory.read? (Memory.store m addr bs) a =
      if addr ≤ a ∧ a < addr + bs.length then bs[a - addr]? else Memory.read? m a := by
  unfold Memory.read? Memory.store
  rw [List.lookup_append, List.lookup_append, Memory.lookup_mapIdx]
  have lt := fun h => Memory.lookup_filter_of_pos (fun x => decide (x < addr)) (a := a) h m
  have lt' := fun h => Memory.lookup_filter_of_neg (fun x => decide (x < addr)) (a := a) h m
  have ge := fun h => Memory.lookup_filter_of_pos (fun x => decide (addr + bs.length ≤ x)) (a := a) h m
  have ge' := fun h => Memory.lookup_filter_of_neg (fun x => decide (addr + bs.length ≤ x)) (a := a) h m
  simp only [decide_eq_true_eq, decide_eq_false_iff_not] at lt lt' ge ge'
  by_cases h1 : a < addr
  · rw [lt h1, if_neg (by omega), if_neg (by omega), ge' (by omega)]
    cases m.lookup a <;> rfl
  · rw [lt' h1, if_pos (by omega)]
    by_cases h2 : a < addr + bs.length
    · rw [if_pos ⟨by omega, h2⟩, ge' (by omega)]
      rw [List.getElem?_eq_getElem (by omega)]
      rfl
    · rw [if_neg (by omega), ge (by omega), List.getElem?_eq_none (by omega)]
      rfl

/-- A write that stays in `BUF` keeps the one form of the memory. -/
theorem Memory.store_wf {m : List Host.Cell} (h : Memory.wf m = true) {addr : Nat} {bs : List Byte}
    (hin : addr + bs.length ≤ Config.bufBytes) : Memory.wf (Memory.store m addr bs) = true := by
  simp only [Memory.wf, Bool.and_eq_true, decide_eq_true_eq, List.all_eq_true] at h ⊢
  obtain ⟨hs, hb⟩ := h
  have sub : ∀ p : Host.Cell → Bool, ((m.filter p).map Prod.fst).Pairwise (· < ·) := fun p =>
    hs.sublist ((List.filter_sublist).map _)
  unfold Memory.store
  constructor
  · rw [List.map_append, List.map_append, List.append_assoc, List.pairwise_append]
    refine ⟨sub _, List.pairwise_append.2 ⟨?_, sub _, ?_⟩, ?_⟩
    · rw [List.pairwise_iff_getElem]
      intro i j hi hj hij
      simp only [List.getElem_map, List.getElem_mapIdx]
      omega
    · intro x hx y hy
      simp only [List.mem_map, List.mem_mapIdx, List.mem_filter, decide_eq_true_eq] at hx hy
      obtain ⟨_, ⟨i, hi, rfl⟩, rfl⟩ := hx
      obtain ⟨c, ⟨_, hc⟩, rfl⟩ := hy
      dsimp only
      omega
    · intro x hx y hy
      simp only [List.mem_append, List.mem_map, List.mem_mapIdx, List.mem_filter, decide_eq_true_eq] at hx hy
      obtain ⟨c, ⟨_, hc⟩, rfl⟩ := hx
      rcases hy with ⟨_, ⟨i, hi, rfl⟩, rfl⟩ | ⟨d, ⟨_, hd⟩, rfl⟩
      · dsimp only; omega
      · omega
  · intro c hc
    simp only [List.mem_append, List.mem_filter, List.mem_mapIdx] at hc
    rcases hc with (⟨hc, _⟩ | ⟨i, hi, rfl⟩) | ⟨hc, _⟩
    · exact hb c hc
    · show addr + i < _; omega
    · exact hb c hc

/-- The memory after reset has the one form. -/
theorem Memory.reset_wf (k : Nat) : Memory.wf (State.resetAt k).buf = true := rfl

/-- `BUF[a]` after a write of bytes (R67). -/
theorem State.bufRead_storeBytes (s : State) (addr : Nat) (bs : List Byte) (a : Nat) :
    (s.storeBytes addr bs).bufRead a = if h : addr ≤ a ∧ a < addr + bs.length then bs[a - addr] else s.bufRead a := by
  simp only [State.bufRead, State.storeBytes_buf, State.storeBytes_epoch, Memory.read?_store]
  by_cases h : addr ≤ a ∧ a < addr + bs.length
  · rw [if_pos h, dif_pos h, List.getElem?_eq_getElem (by omega), Option.getD_some]
  · rw [if_neg h, dif_neg h]

@[simp] theorem bytesLE_length (n v : Nat) : (bytesLE n v).length = n := by
  induction n generalizing v with
  | zero => rfl
  | succ n ih => simp [bytesLE, ih]

/-- The bytes of a value spell it back, up to its size (R65). -/
@[simp] theorem natOfBytes_bytesLE (n v : Nat) : natOfBytes (bytesLE n v) = v % 256 ^ n := by
  induction n generalizing v with
  | zero => simp [bytesLE, natOfBytes, Nat.mod_one]
  | succ n ih =>
    rw [bytesLE, natOfBytes, ih, BitVec.toNat_ofNat, show 256 ^ (n + 1) = 256 * 256 ^ n from pow_succ' .., Nat.mod_mul (a := 256)]

end Sys2Proof.Machine
end

