-- ==== Sys2Proof/Laws/Noise.lean ====
section
/-! SUPPORT. What the shared operations of the simplex evaluator give, so that no proof unfolds them on open terms. -/

namespace Sys2Proof.Machine

/-- R273's kernel, from the attenuation and the dot product. -/
theorem corner_eq (radius : F64) (g : List Int) (p : List F64) :
    corner radius g p =
      let t := p.foldl (fun acc v => fSub acc (fMul v v)) radius
      if fLt fZero t = true then fMul (fMul (fMul t t) (fMul t t)) (dot g p) else fZero := by
  simp only [corner]

/-- R273's dot product in two dimensions; further components of the gradient play no part (R264). -/
theorem dot_two (a b : Int) (gs : List Int) (p q : F64) :
    dot (a :: b :: gs) [p, q] = fAdd (fMul (fOfInt a) p) (fMul (fOfInt b) q) := by
  simp only [dot, List.zip_cons_cons, List.zip_nil_right, List.foldl_cons, List.foldl_nil]

/-- R273's dot product in three dimensions. -/
theorem dot_three (a b c : Int) (gs : List Int) (p q r : F64) :
    dot (a :: b :: c :: gs) [p, q, r] =
      fAdd (fAdd (fMul (fOfInt a) p) (fMul (fOfInt b) q)) (fMul (fOfInt c) r) := by
  simp only [dot, List.zip_cons_cons, List.zip_nil_right, List.foldl_cons, List.foldl_nil]

/-- R273's dot product in four dimensions. -/
theorem dot_four (a b c d : Int) (gs : List Int) (p q r v : F64) :
    dot (a :: b :: c :: d :: gs) [p, q, r, v] =
      fAdd (fAdd (fAdd (fMul (fOfInt a) p) (fMul (fOfInt b) q)) (fMul (fOfInt c) r)) (fMul (fOfInt d) v) := by
  simp only [dot, List.zip_cons_cons, List.zip_nil_right, List.foldl_cons, List.foldl_nil]

@[simp] theorem cornerOffset_nil (o : List Nat) (m : F64) : cornerOffset [] o m = [] := by simp only [cornerOffset, List.zipWith_nil_left]

@[simp] theorem cornerOffset_cons (v : F64) (vs : List F64) (k : Nat) (ks : List Nat) (m : F64) :
    cornerOffset (v :: vs) (k :: ks) m = fAdd (fSub v (fOfInt k)) m :: cornerOffset vs ks m := by
  simp only [cornerOffset, List.zipWith_cons_cons]

/-- The skewed cell of a point, where every skewed coordinate has one. -/
theorem skew_of_cells {f g : F64} {x : List F64} {idx : List Int}
    (h : x.mapM (fun v => ifloor (fAdd v (fMul (sumLeft x) f))) = some idx) :
    skew f g x = some (idx, List.zipWith (fun v (n : Int) => fSub v (fSub (fOfInt n) (fMul (fOfInt idx.sum) g))) x idx) := by
  simp only [skew, h]

theorem sm12At_lt (s : State) (k : Nat) : s.sm12At k < 12 := (s.sm12.getD k 0).isLt

theorem sm32At_lt (s : State) (k : Nat) : s.sm32At k < 32 := (s.sm32.getD k 0).isLt

/-- Every gradient of R264 has three components. -/
theorem grad3_row {g : Nat} (h : g < 12) : ∃ a b c, Config.simplex.grad3.getD g [] = [a, b, c] := by
  have key : ∀ g < 12, (Config.simplex.grad3.getD g []).length = 3 := by decide
  exact List.length_eq_three.1 (key g h)

/-- Every gradient of R265 has four components. -/
theorem grad4_row {g : Nat} (h : g < 32) : ∃ a b c d, Config.simplex.grad4.getD g [] = [a, b, c, d] := by
  have key : ∀ g < 32, (Config.simplex.grad4.getD g []).length = 4 := by decide
  have h := key g h
  match Config.simplex.grad4.getD g [], h with
  | [a, b, c, d], _ => exact ⟨a, b, c, d, rfl⟩

/-- R273's dot product with the gradient that a corner's table entry selects, in three dimensions. -/
theorem dot_grad3 (s : State) (k : Nat) (p q r : F64) :
    dot (Config.simplex.grad3.getD (s.sm12At k) []) [p, q, r] =
      let at' := fun axis => fOfInt ((Config.simplex.grad3.getD (s.sm12At k) []).getD axis 0)
      fAdd (fAdd (fMul (at' 0) p) (fMul (at' 1) q)) (fMul (at' 2) r) := by
  obtain ⟨a, b, c, e⟩ := grad3_row (sm12At_lt s k)
  rw [e, dot_three]
  rfl

/-- R273's dot product with the gradient that a corner's table entry selects, in four dimensions. -/
theorem dot_grad4 (s : State) (k : Nat) (p q r v : F64) :
    dot (Config.simplex.grad4.getD (s.sm32At k) []) [p, q, r, v] =
      let at' := fun axis => fOfInt ((Config.simplex.grad4.getD (s.sm32At k) []).getD axis 0)
      fAdd (fAdd (fAdd (fMul (at' 0) p) (fMul (at' 1) q)) (fMul (at' 2) r)) (fMul (at' 3) v) := by
  obtain ⟨a, b, c, d, e⟩ := grad4_row (sm32At_lt s k)
  rw [e, dot_four]
  rfl

/-- The mask of R266 has six bits. -/
theorem rankMask_lt (x y z w : F64) : rankMask x y z w < 64 := by
  have bit : ∀ p : Bool, p.toNat ≤ 1 := by decide
  simp only [rankMask]
  have := bit (fLt y x)
  have := bit (fLt z x)
  have := bit (fLt z y)
  have := bit (fLt w x)
  have := bit (fLt w y)
  have := bit (fLt w z)
  omega

/-- Every entry of R266's table has four ranks. -/
theorem rank_row {c : Nat} (h : c < 64) : ∃ a b d e, Config.rank c = [a, b, d, e] := by
  have key : ∀ c < 64, (Config.rank c).length = 4 := by decide
  have h := key c h
  match Config.rank c, h with
  | [a, b, d, e], _ => exact ⟨a, b, d, e, rfl⟩

end Sys2Proof.Machine
end

