-- ==== Sys2Proof/Laws/Ops.lean ====
section
/-! SUPPORT. What each shared operation can do, said once: where it completes, and every state it can answer with. -/

namespace Sys2Proof.Machine

variable {s t : State} {i : Instr} {e : Err} {rd : Reg}

@[simp] theorem check_true (e : Err) (i : Instr) (s : State) (k : State → Result) : check true e i s k = k s := rfl

@[simp] theorem check_false (e : Err) (i : Instr) (s : State) (k : State → Result) :
    check false e i s k = .next (s.raise e i) := rfl

/-- Everything a check can do (R303). -/
theorem check_cases {ok : Bool} {k : State → Result} (h : check ok e i s k = .next t) :
    (ok = true ∧ k s = .next t) ∨ (ok = false ∧ t = s.raise e i) := by
  cases ok
  · exact .inr ⟨rfl, by simpa using h.symm⟩
  · exact .inl ⟨rfl, h⟩

/-- Where a drawing command completes (R150). -/
theorem drawCommand_completes {ok : Bool} {write : Word64 → State → State} (hs : s.seeded = true) (ho : ok = true) :
    drawCommand i ok s write = .next (write s.nextDraw (s.setGen (nextWord s.gen).2)) := by
  subst ho; simp [drawCommand, hs, State.nextDraw]

/-- Everything a drawing command can do (R150, R303). -/
theorem drawCommand_cases {ok : Bool} {write : Word64 → State → State} (h : drawCommand i ok s write = .next t) :
    (s.seeded = false ∧ t = s.raise .unseeded i) ∨
    (s.seeded = true ∧ ok = false ∧ t = s.raise .operand i) ∨
    (s.seeded = true ∧ ok = true ∧ t = write s.nextDraw (s.setGen (nextWord s.gen).2)) := by
  rcases check_cases h with ⟨hs, h⟩ | ⟨hs, h⟩
  · rcases check_cases h with ⟨ho, h⟩ | ⟨ho, h⟩
    · exact .inr (.inr ⟨hs, ho, (Host.Outcome.next.inj h).symm⟩)
    · exact .inr (.inl ⟨hs, ho, h⟩)
  · exact .inl ⟨hs, h⟩

/-- A draw whose result goes to one register. -/
theorem setReg_setGen_nextWord (s : State) (rd : Reg) (v : Word64) :
    (s.setGen (nextWord s.gen).2).setReg rd v = s.drawnInto rd v := rfl

/-- A draw whose result goes to a pair (R13, R172). -/
theorem setPair_setGen_nextWord (s : State) (rd : Reg) (v : Int) :
    (s.setGen (nextWord s.gen).2).setPair rd v =
      s.drawnIntoPair rd ((BitVec.ofInt 128 v).extractLsb' 0 64) ((BitVec.ofInt 128 v).extractLsb' 64 64) := rfl

/-- Everything a bounded integer output can do. -/
theorem drawBounded_cases {lo hi : Int} {mapper : Word64 → Int → Int → Int}
    (h : drawBounded i rd lo hi mapper s = .next t) :
    (s.seeded = false ∧ t = s.raise .unseeded i) ∨
    (s.seeded = true ∧ hi < lo ∧ t = s.raise .operand i) ∨
    (s.seeded = true ∧ lo ≤ hi ∧ t = s.drawnInto rd (wordOfInt (mapper s.nextDraw lo hi))) := by
  rcases drawCommand_cases h with h | ⟨hs, ho, h⟩ | ⟨hs, ho, h⟩
  · exact .inl h
  · exact .inr (.inl ⟨hs, by simpa using ho, h⟩)
  · exact .inr (.inr ⟨hs, by simpa using ho, h⟩)

/-- Everything a double output can do. -/
theorem drawDouble_cases {ok : Bool} {value : Word64 → F64} (h : drawDouble i rd ok value s = .next t) :
    (s.seeded = false ∧ t = s.raise .unseeded i) ∨
    (s.seeded = true ∧ ok = false ∧ t = s.raise .operand i) ∨
    (s.seeded = true ∧ ok = true ∧ t = s.drawnInto rd (fToBits (value s.nextDraw))) := drawCommand_cases h

/-- Everything a fixed-point output can do. -/
theorem drawFixed_cases {ok : Bool} {value : Word64 → Int} (h : drawFixed i rd ok value s = .next t) :
    (i.wellFormed = false ∧ t = s.raise .illegal i) ∨
    (s.seeded = false ∧ t = s.raise .unseeded i) ∨
    (s.seeded = true ∧ ok = false ∧ t = s.raise .operand i) ∨
    (i.wellFormed = true ∧ s.seeded = true ∧ ok = true ∧
      t = (s.setGen (nextWord s.gen).2).setPair rd (value s.nextDraw)) := by
  have h : check i.wellFormed .illegal i s (fun s => drawCommand i ok s fun w t => t.setPair rd (value w)) = .next t := h
  rcases check_cases h with ⟨hw, h⟩ | ⟨hw, h⟩
  · rcases drawCommand_cases h with h | h | ⟨hs, ho, h⟩
    · exact .inr (.inl h)
    · exact .inr (.inr (.inl h))
    · exact .inr (.inr (.inr ⟨hw, hs, ho, h⟩))
  · exact .inl ⟨hw, h⟩

/-- Where a noise evaluation completes (R220). -/
theorem evaluate_completes {built : Bool} {value : State → Option F64} {v : F64} (hw : i.wellFormed = true)
    (hb : built = true) (hv : value s = some v) : evaluate i rd built value s = .next (s.setReg rd (fToBits v)) := by
  subst hb; simp [evaluate, checkLegal, hw, hv]

/-- Everything a noise evaluation can do (R220). -/
theorem evaluate_cases {built : Bool} {value : State → Option F64} (h : evaluate i rd built value s = .next t) :
    (i.wellFormed = false ∧ t = s.raise .illegal i) ∨
    (built = false ∧ t = s.raise .notBuilt i) ∨
    (built = true ∧ value s = none ∧ t = s.raise .operand i) ∨
    (built = true ∧ ∃ v, value s = some v ∧ t = s.setReg rd (fToBits v)) := by
  cases hw : i.wellFormed
  · exact .inl ⟨rfl, by simpa [evaluate, checkLegal, hw] using h.symm⟩
  · cases hb : built
    · exact .inr (.inl ⟨rfl, by simpa [evaluate, checkLegal, hw, hb] using h.symm⟩)
    · simp only [evaluate, checkLegal, hw, hb, check_true] at h
      cases hv : value s with
      | none => exact .inr (.inr (.inl ⟨rfl, rfl, by simpa [hv] using h.symm⟩))
      | some v => exact .inr (.inr (.inr ⟨rfl, v, rfl, by simpa [hv] using h.symm⟩))

/-- A check whose continuation answers a next state answers one. -/
theorem check_answers_next {ok : Bool} {k : State → Result} (h : ∃ t, k s = .next t) :
    ∃ t, check ok e i s k = .next t := by
  cases ok
  · exact ⟨_, rfl⟩
  · exact h

/-- A drawing command always answers a next state. -/
theorem drawCommand_answers_next (ok : Bool) (write : Word64 → State → State) :
    ∃ t, drawCommand i ok s write = .next t :=
  check_answers_next (check_answers_next ⟨_, rfl⟩)

/-- A noise evaluation always answers a next state. -/
theorem evaluate_answers_next (built : Bool) (value : State → Option F64) :
    ∃ t, evaluate i rd built value s = .next t := by
  refine check_answers_next (k := fun s => check built .notBuilt i s _) (check_answers_next ?_)
  cases value s <;> exact ⟨_, rfl⟩

/-- What a step does, by the head of the port. -/
theorem step_cases (s : State) :
    (s.port = [] ∧ step s = .next s) ∨ ∃ a rest, s.port = a :: rest ∧ step s = hostAccess a s.takeAccess := by
  cases h : s.port with
  | nil => exact .inl ⟨rfl, by simp [step, h]⟩
  | cons a rest => exact .inr ⟨a, rest, rfl, by simp [step, h]⟩

/-- What issuing a value does with no error latched (R314). -/
theorem issue_of_clear (h : s.ecode = 0) (v : Word64) :
    issue v s = match decodeCommand v with
      | .ok i => exec i s
      | .error _ => .next (s.latch .illegal ((v.setWidth 32).setWidth 64)) := by
  have e : s.err = false := by simp [State.err, h]
  cases d : decodeCommand v <;> simp only [issue, e, d]

end Sys2Proof.Machine
end

