-- ==== Sys2Proof/Laws/PerInstr.lean ====
section
/-! SUPPORT. The family WordShape: the word of every command has its opcode's format and keeps every must-be-zero bit 0 (R91,
R95). One lemma per constructor. -/

namespace Sys2Proof.Laws.WordShape

/-- The opcode of the command is in the table, and its word has the shape of the opcode's format. -/
def Statement (i : Instr) : Prop :=
  ∃ fmt, formatOf i.fields.op = some fmt ∧ fmt.unusedZero (splitWord (encode i)) = true

theorem nop : Statement .nop :=
  ⟨.z, rfl, by simp [Instr.fields, Format.unusedZero]⟩

theorem clrerr : Statement .clrerr :=
  ⟨.z, rfl, by simp [Instr.fields, Format.unusedZero]⟩

theorem seed (ra : Reg) : Statement (.seed ra) :=
  ⟨.a, rfl, by simp [Instr.fields, Format.unusedZero]⟩

theorem seeda (ra : Reg) : Statement (.seeda ra) :=
  ⟨.a, rfl, by simp [Instr.fields, Format.unusedZero]⟩

theorem save : Statement .save :=
  ⟨.z, rfl, by simp [Instr.fields, Format.unusedZero]⟩

theorem restore : Statement .restore :=
  ⟨.z, rfl, by simp [Instr.fields, Format.unusedZero]⟩

theorem nbytes (ra : Reg) : Statement (.nbytes ra) :=
  ⟨.a, rfl, by simp [Instr.fields, Format.unusedZero]⟩

theorem nbytesz (ra : Reg) : Statement (.nbytesz ra) :=
  ⟨.a, rfl, by simp [Instr.fields, Format.unusedZero]⟩

theorem nu64 (rd : Reg) : Statement (.nu64 rd) :=
  ⟨.d, rfl, by simp [Instr.fields, Format.unusedZero]⟩

theorem nu32 (rd : Reg) : Statement (.nu32 rd) :=
  ⟨.d, rfl, by simp [Instr.fields, Format.unusedZero]⟩

theorem ni64 (rd : Reg) : Statement (.ni64 rd) :=
  ⟨.d, rfl, by simp [Instr.fields, Format.unusedZero]⟩

theorem ni32 (rd : Reg) : Statement (.ni32 rd) :=
  ⟨.d, rfl, by simp [Instr.fields, Format.unusedZero]⟩

theorem nu64r (rd ra rb : Reg) : Statement (.nu64r rd ra rb) :=
  ⟨.dab, rfl, by simp [Instr.fields, Format.unusedZero]⟩

theorem nu32r (rd ra rb : Reg) : Statement (.nu32r rd ra rb) :=
  ⟨.dab, rfl, by simp [Instr.fields, Format.unusedZero]⟩

theorem ni64r (rd ra rb : Reg) : Statement (.ni64r rd ra rb) :=
  ⟨.dab, rfl, by simp [Instr.fields, Format.unusedZero]⟩

theorem ni32r (rd ra rb : Reg) : Statement (.ni32r rd ra rb) :=
  ⟨.dab, rfl, by simp [Instr.fields, Format.unusedZero]⟩

theorem nu64m (rd ra : Reg) : Statement (.nu64m rd ra) :=
  ⟨.da, rfl, by simp [Instr.fields, Format.unusedZero]⟩

theorem nu32m (rd ra : Reg) : Statement (.nu32m rd ra) :=
  ⟨.da, rfl, by simp [Instr.fields, Format.unusedZero]⟩

theorem ni64m (rd ra : Reg) : Statement (.ni64m rd ra) :=
  ⟨.da, rfl, by simp [Instr.fields, Format.unusedZero]⟩

theorem ni32m (rd ra : Reg) : Statement (.ni32m rd ra) :=
  ⟨.da, rfl, by simp [Instr.fields, Format.unusedZero]⟩

theorem nd (rd : Reg) : Statement (.nd rd) :=
  ⟨.d, rfl, by simp [Instr.fields, Format.unusedZero]⟩

theorem ndm (rd ra : Reg) : Statement (.ndm rd ra) :=
  ⟨.da, rfl, by simp [Instr.fields, Format.unusedZero]⟩

theorem ndr (rd ra rb : Reg) : Statement (.ndr rd ra rb) :=
  ⟨.dab, rfl, by simp [Instr.fields, Format.unusedZero]⟩

theorem ntd (rd : Reg) : Statement (.ntd rd) :=
  ⟨.d, rfl, by simp [Instr.fields, Format.unusedZero]⟩

theorem ntdm (rd ra : Reg) : Statement (.ntdm rd ra) :=
  ⟨.da, rfl, by simp [Instr.fields, Format.unusedZero]⟩

theorem ntdr (rd ra rb : Reg) : Statement (.ntdr rd ra rb) :=
  ⟨.dab, rfl, by simp [Instr.fields, Format.unusedZero]⟩

theorem nh (rd : Reg) : Statement (.nh rd) :=
  ⟨.d, rfl, by simp [Instr.fields, Format.unusedZero]⟩

theorem nhm (rd ra : Reg) : Statement (.nhm rd ra) :=
  ⟨.da, rfl, by simp [Instr.fields, Format.unusedZero]⟩

theorem nhr (rd ra rb : Reg) : Statement (.nhr rd ra rb) :=
  ⟨.dab, rfl, by simp [Instr.fields, Format.unusedZero]⟩

theorem nth (rd : Reg) : Statement (.nth rd) :=
  ⟨.d, rfl, by simp [Instr.fields, Format.unusedZero]⟩

theorem nthm (rd ra : Reg) : Statement (.nthm rd ra) :=
  ⟨.da, rfl, by simp [Instr.fields, Format.unusedZero]⟩

theorem nthr (rd ra rb : Reg) : Statement (.nthr rd ra rb) :=
  ⟨.dab, rfl, by simp [Instr.fields, Format.unusedZero]⟩

theorem witness (rd : Reg) : Statement (.witness rd) :=
  ⟨.d, rfl, by simp [Instr.fields, Format.unusedZero]⟩

theorem isprime (rd ra : Reg) (rounds : BitVec 12) : Statement (.isprime rd ra rounds) :=
  ⟨.dai, rfl, by simp [Instr.fields, Format.unusedZero]⟩

theorem pseed (ra : Reg) : Statement (.pseed ra) :=
  ⟨.a, rfl, by simp [Instr.fields, Format.unusedZero]⟩

theorem pfreq (ra : Reg) : Statement (.pfreq ra) :=
  ⟨.a, rfl, by simp [Instr.fields, Format.unusedZero]⟩

theorem poct (ra : Reg) : Statement (.poct ra) :=
  ⟨.a, rfl, by simp [Instr.fields, Format.unusedZero]⟩

theorem poff (ra : Reg) (axis : Axis) : Statement (.poff ra axis) :=
  ⟨.ai, rfl, by cases axis <;> simp [Instr.fields, Format.unusedZero, immOfAxis]⟩

theorem pscl (ra : Reg) (axis : Axis) : Statement (.pscl ra axis) :=
  ⟨.ai, rfl, by cases axis <;> simp [Instr.fields, Format.unusedZero, immOfAxis]⟩

theorem pbuild : Statement .pbuild :=
  ⟨.z, rfl, by simp [Instr.fields, Format.unusedZero]⟩

theorem pn1 (rd ra : Reg) : Statement (.pn1 rd ra) :=
  ⟨.da, rfl, by simp [Instr.fields, Format.unusedZero]⟩

theorem pn2 (rd ra : Reg) : Statement (.pn2 rd ra) :=
  ⟨.da, rfl, by simp [Instr.fields, Format.unusedZero]⟩

theorem pn3 (rd ra : Reg) : Statement (.pn3 rd ra) :=
  ⟨.da, rfl, by simp [Instr.fields, Format.unusedZero]⟩

theorem pn4 (rd ra : Reg) : Statement (.pn4 rd ra) :=
  ⟨.da, rfl, by simp [Instr.fields, Format.unusedZero]⟩

theorem sseed (ra : Reg) : Statement (.sseed ra) :=
  ⟨.a, rfl, by simp [Instr.fields, Format.unusedZero]⟩

theorem sfreq (ra : Reg) : Statement (.sfreq ra) :=
  ⟨.a, rfl, by simp [Instr.fields, Format.unusedZero]⟩

theorem soct (ra : Reg) : Statement (.soct ra) :=
  ⟨.a, rfl, by simp [Instr.fields, Format.unusedZero]⟩

theorem soff (ra : Reg) (axis : Axis) : Statement (.soff ra axis) :=
  ⟨.ai, rfl, by cases axis <;> simp [Instr.fields, Format.unusedZero, immOfAxis]⟩

theorem sscl (ra : Reg) (axis : Axis) : Statement (.sscl ra axis) :=
  ⟨.ai, rfl, by cases axis <;> simp [Instr.fields, Format.unusedZero, immOfAxis]⟩

theorem sbuild : Statement .sbuild :=
  ⟨.z, rfl, by simp [Instr.fields, Format.unusedZero]⟩

theorem sn2 (rd ra : Reg) : Statement (.sn2 rd ra) :=
  ⟨.da, rfl, by simp [Instr.fields, Format.unusedZero]⟩

theorem sn3 (rd ra : Reg) : Statement (.sn3 rd ra) :=
  ⟨.da, rfl, by simp [Instr.fields, Format.unusedZero]⟩

theorem sn4 (rd ra : Reg) : Statement (.sn4 rd ra) :=
  ⟨.da, rfl, by simp [Instr.fields, Format.unusedZero]⟩

theorem smip (rd ra : Reg) : Statement (.smip rd ra) :=
  ⟨.da, rfl, by simp [Instr.fields, Format.unusedZero]⟩

end Sys2Proof.Laws.WordShape
end

