-- ==== Sys2Proof/Tests/Slice0.lean ====
section
/-! SUPPORT. Tests on the spec's own examples and vectors (95_test_vectors.md), and, for every statement with hypotheses, a state
and operands that meet them. -/

namespace Sys2Proof.Tests

set_option Elab.async false

open Sys2Proof Sys2Proof.Machine

/-! WellFormed refuses a pair or a group that reaches past `r15` (R92). -/

theorem test_wf_pair_rd : (Instr.nh 15).wellFormed = false ∧ (Instr.nth 15).wellFormed = false ∧
    (Instr.nhm 15 0).wellFormed = false ∧ (Instr.nthm 15 0).wellFormed = false ∧
    (Instr.nhr 15 0 0).wellFormed = false ∧ (Instr.nthr 15 0 0).wellFormed = false := by decide

theorem test_wf_pair_ra : (Instr.nhm 14 15).wellFormed = false ∧ (Instr.nthm 14 15).wellFormed = false ∧
    (Instr.nhr 0 15 0).wellFormed = false ∧ (Instr.nthr 0 15 0).wellFormed = false := by decide

theorem test_wf_pair_rb : (Instr.nhr 0 0 15).wellFormed = false ∧ (Instr.nthr 0 0 15).wellFormed = false := by decide

theorem test_wf_group : (Instr.pn2 1 15).wellFormed = false ∧ (Instr.pn3 0 14).wellFormed = false ∧
    (Instr.pn4 0 13).wellFormed = false ∧ (Instr.sn2 0 15).wellFormed = false ∧ (Instr.sn3 0 14).wellFormed = false ∧
    (Instr.sn4 0 13).wellFormed = false ∧ (Instr.smip 0 13).wellFormed = false := by decide

theorem test_wf_group_edge : (Instr.pn1 0 15).wellFormed = true ∧ (Instr.pn2 0 14).wellFormed = true ∧
    (Instr.pn3 0 13).wellFormed = true ∧ (Instr.pn4 0 12).wellFormed = true := by decide

/-! Decoding: a word of every command, written from R90 and R95. In the first theorem of each family one word is written bit by
bit: opcode, `rd`, `ra`, `rb`, `imm`. -/

theorem test_decode_system : decode 0b00000000_0000_0000_0000_000000000000 = .ok .nop ∧
    decode 0x01000000 = .ok .clrerr := by decide

theorem test_decode_generator : decode 0b00010000_0000_1111_0000_000000000000 = .ok (.seed 15) ∧
    decode 0x11070000 = .ok (.seeda 7) ∧ decode 0x12000000 = .ok .save ∧ decode 0x13000000 = .ok .restore ∧
    decode 0x14030000 = .ok (.nbytes 3) ∧ decode 0x150A0000 = .ok (.nbytesz 10) := by decide

theorem test_decode_integers : decode 0b00100100_0010_0000_0001_000000000000 = .ok (.nu64r 2 0 1) ∧
    decode 0x20100000 = .ok (.nu64 1) ∧ decode 0x21F00000 = .ok (.nu32 15) ∧ decode 0x22300000 = .ok (.ni64 3) ∧
    decode 0x23400000 = .ok (.ni32 4) ∧ decode 0x25123000 = .ok (.nu32r 1 2 3) ∧ decode 0x26456000 = .ok (.ni64r 4 5 6) ∧
    decode 0x27FED000 = .ok (.ni32r 15 14 13) ∧ decode 0x28120000 = .ok (.nu64m 1 2) ∧
    decode 0x29530000 = .ok (.nu32m 5 3) ∧ decode 0x2A780000 = .ok (.ni64m 7 8) ∧ decode 0x2B9A0000 = .ok (.ni32m 9 10) := by
  decide

theorem test_decode_doubles : decode 0b00110010_0001_0010_0011_000000000000 = .ok (.ndr 1 2 3) ∧
    decode 0x30600000 = .ok (.nd 6) ∧ decode 0x31120000 = .ok (.ndm 1 2) ∧ decode 0x34600000 = .ok (.ntd 6) ∧
    decode 0x35120000 = .ok (.ntdm 1 2) ∧ decode 0x36123000 = .ok (.ntdr 1 2 3) := by decide

theorem test_decode_fixed : decode 0b00111010_1110_1100_1010_000000000000 = .ok (.nhr 14 12 10) ∧
    decode 0x38E00000 = .ok (.nh 14) ∧ decode 0x39240000 = .ok (.nhm 2 4) ∧ decode 0x3C000000 = .ok (.nth 0) ∧
    decode 0x3D240000 = .ok (.nthm 2 4) ∧ decode 0x3E246000 = .ok (.nthr 2 4 6) := by decide

theorem test_decode_primality : decode 0b01000001_0001_0000_0000_000000000101 = .ok (.isprime 1 0 5) ∧
    decode 0x41100FFF = .ok (.isprime 1 0 4095) ∧ decode 0x40200000 = .ok (.witness 2) := by decide

theorem test_decode_perlin : decode 0b01010011_0000_0011_0000_000000000001 = .ok (.poff 3 .y) ∧
    decode 0x50000000 = .ok (.pseed 0) ∧ decode 0x51010000 = .ok (.pfreq 1) ∧ decode 0x52020000 = .ok (.poct 2) ∧
    decode 0x54040002 = .ok (.pscl 4 .z) ∧ decode 0x55000000 = .ok .pbuild ∧ decode 0x581F0000 = .ok (.pn1 1 15) ∧
    decode 0x59400000 = .ok (.pn2 4 0) ∧ decode 0x5A2D0000 = .ok (.pn3 2 13) ∧ decode 0x5B0C0000 = .ok (.pn4 0 12) := by decide

theorem test_decode_simplex : decode 0b01100100_0000_1001_0000_000000000011 = .ok (.sscl 9 .t) ∧
    decode 0x60010000 = .ok (.sseed 1) ∧ decode 0x61020000 = .ok (.sfreq 2) ∧ decode 0x62030000 = .ok (.soct 3) ∧
    decode 0x63040000 = .ok (.soff 4 .x) ∧ decode 0x65000000 = .ok .sbuild ∧ decode 0x69010000 = .ok (.sn2 0 1) ∧
    decode 0x6A1D0000 = .ok (.sn3 1 13) ∧ decode 0x6B2C0000 = .ok (.sn4 2 12) ∧ decode 0x6C580000 = .ok (.smip 5 8) := by
  decide

/-- The illegal words of V22, each refused by the step of R96 that refuses it. -/
theorem test_decode_illegal : decode 0x02000000 = .error .reservedOpcode ∧ decode 0x68000000 = .error .reservedOpcode ∧
    decode 0xFF000000 = .error .reservedOpcode ∧ decode 0x20000001 = .error .unusedBits ∧
    decode 0x20010000 = .error .unusedBits ∧ decode 0x00000001 = .error .unusedBits ∧
    decode 0x53030004 = .error .unusedBits ∧ decode 0x41101005 = .error .unusedBits ∧
    decode 0x38F00000 = .error .pastR15 ∧ decode 0x39EF0000 = .error .pastR15 ∧ decode 0x5B0D0000 = .error .pastR15 ∧
    decode 0x591F0000 = .error .pastR15 ∧ decodeCommand 0x0000000120000000 = .error .upperHalf := by decide

theorem test_decodeTableWord : decodeTableWord 32 0x24201000 = some (.nu64r 2 0 1) ∧ decodeTableWord 32 0x68000000 = none := by
  decide

/-! Constant tables: the formulas that R263, R265 and R266 give for them. -/

/-- R265: component `q` of entry `8q + 4a + 2b + c` is 0, the others are `1−2a`, `1−2b`, `1−2c`. -/
theorem test_grad4 : (List.range 32).all (fun g =>
    let sign := fun k => 1 - 2 * ((g / k % 2 : Nat) : Int)
    Config.simplex.grad4.getD g [] = ([sign 4, sign 2, sign 1].take (g / 8)) ++ 0 :: ([sign 4, sign 2, sign 1].drop (g / 8))) := by decide

/-- R263: the skew constants by their definitions, from `SQRT3` and `SQRT5`. -/
theorem test_skew_constants :
    let f := fun n : Int => fOfInt n
    let sqrt3 := fOfBits 0x3FFBB67AE8584CAA
    let sqrt5 := fOfBits 0x4001E3779B97F4A8
    fToBits (fMul (fSub sqrt3 (f 1)) fHalf) = Config.simplex.f2 ∧ fToBits (fDiv (fSub (f 3) sqrt3) (f 6)) = Config.simplex.g2 ∧
    fToBits (fDiv (f 1) (f 3)) = Config.simplex.f3 ∧ fToBits (fDiv (f 1) (f 6)) = Config.simplex.g3 ∧
    fToBits (fDiv (fSub sqrt5 (f 1)) (f 4)) = Config.simplex.f4 ∧ fToBits (fDiv (fSub (f 5) sqrt5) (f 20)) = Config.simplex.g4 := by
  decide +kernel

/-! Values and functions (V5, V10, V11, V16). -/

/-- V11, R165: extreme words, and the corner of R168 that is not clamped. -/
theorem test_unit_doubles : fToBits (unitInc (BitVec.allOnes 64)) = 0x3FF0000000000000 ∧ fToBits (unitInc 0) = 0 ∧
    fToBits (unitTrunc (BitVec.allOnes 64)) = 0x3FEFFFFFFFFFFFFF ∧
    fToBits (doubleInRange (unitInc (BitVec.allOnes 64)) (fOfBits 0xC3B0000000000000) (fOfBits 0x4069000000000000)) =
      0x4070000000000000 := by decide +kernel

/-- V10: the boundary words of R154, and the rounding corner of R159. -/
theorem test_maps : map64 0x1745D1745D1745D1 10 20 = 10 ∧ map64 0x1745D1745D1745D2 10 20 = 11 ∧
    map64 0x8000000000000000 (-(2 ^ 63)) (2 ^ 63 - 1) = 0 ∧ map32 0xAAAAAAAAAAAAA800 0 2 = 2 ∧
    map32 (BitVec.allOnes 64) 10 20 = 20 := by decide +kernel

/-- V16: the fade curve. -/
theorem test_fade : fToBits (fade fOne) = 0x3FF0000000000000 ∧ fToBits (fade (fOfBits 0x3FD0000000000000)) = 0x3FBA800000000000 ∧
    fToBits (fade (fOfBits 0x3FE8000000000000)) = 0x3FECB00000000000 ∧
    fToBits (fade (fOfBits 0x3FB999999999999A)) = 0x3F8187E7C06E19BB := by decide +kernel

/-! One step on a small state. -/

/-- The state that a command answers. -/
def after (i : Instr) (s : State) : State :=
  match exec i s with
  | .next t => t
  | .fault _ => s
  | .refused _ => s

/-- Reset, then `SEED` with 42 (V1), and the registers as given. -/
def seeded42 (regs : List Word64 := []) : State :=
  { State.reset with
    gen := initState 42
    seeded := true
    r := Vector.ofFn fun k : Fin 16 => regs.getD k.val 0 }

/-- Reset with the registers as given. -/
def unseeded (regs : List Word64) : State := { State.reset with r := Vector.ofFn fun k : Fin 16 => regs.getD k.val 0 }

theorem test_nop : after .nop (seeded42 [1]) = seeded42 [1] := rfl

/-- R316's example: `NU64` after reset, then `CLRERR`. -/
theorem test_clrerr : (after (.nu64 0) State.reset).status = 0x208 ∧ (after (.nu64 0) State.reset).einfo = 0x20000000 ∧
    (after .clrerr (after (.nu64 0) State.reset)).status = 0 := by decide +kernel

/-- V1. -/
theorem test_seed : (after (.seed 0) (unseeded [42])).gen.mt[1] = 0x7D720F6E9086DD63 ∧
    (after (.seed 0) (unseeded [42])).status = 1 := by decide +kernel

/-- V1, V6: the first draw after `SEED` with 42 regenerates. -/
theorem test_first_word : nextWord (initState 42) =
    ((0xC151DF7D6EE5E2D6 : Word64), { regenerate (initState 42) with mti := 1 }) ∧ temper 0x0EA48D22BA7B89F8 = 0xC151DF7D6EE5E2D6 := by
  have h : temper ((regenerate (initState 42)).mt.getD 0 0) = 0xC151DF7D6EE5E2D6 := by decide +kernel
  exact ⟨Prod.ext h rfl, by decide⟩

/-- V3's key, as `SEEDA` reads it from `BUF`. -/
theorem test_seeda_key :
    ({ unseeded [2] with buf := (bytesLE 8 0x12345 ++ bytesLE 8 0xF123456789ABCDE0).mapIdx fun k b => (k, b) } : State).seedKey 2 =
      [0x12345, 0xF123456789ABCDE0] := by decide +kernel

theorem test_seeda_config : (after (.seeda 0) (unseeded [513])).status = 0x308 ∧
    (after (.seeda 0) (unseeded [0])).einfo = 0x11000000 := by decide +kernel

/-- V8, the header and the first word, and that `SAVE` stores the whole image at byte 0. -/
theorem test_save : (serialise (initState 42)).take 44 =
    [0x38, 0x01, 0, 0, 0x9C, 0, 0, 0, 0, 0, 0, 0x80, 0xFF, 0xFF, 0xFF, 0xFF, 0xFF, 0xFF, 0xFF, 0x7F, 0, 0, 0, 0,
     0, 0, 0, 0, 0, 0, 0, 0, 0xE9, 0x19, 0x66, 0xA9, 0x5A, 0x6F, 0x02, 0xB5, 0x38, 0x01, 0, 0] ∧
    after .save seeded42 = seeded42.storeBytes 0 (serialise (initState 42)) := ⟨by decide +kernel, rfl⟩

/-- A state whose `BUF` starts with a good header and the cursor given, all other bytes unwritten. -/
def imageState (cursor : Nat) : State :=
  { unseeded [] with buf := (serialHeader ++ bytesLE 4 cursor).mapIdx fun k b => (k, b) }

/-- V7: the good header is accepted; (b), (c), (e) and (f) are not. -/
theorem test_restore : (after .restore (imageState 312)).status = 1 ∧ (after .restore (imageState 0)).gen.mti = 0 ∧
    (after .restore ((imageState 312).memWrite 0 1 0x39)).status = 0x408 ∧
    (after .restore ((imageState 312).memWrite 4 1 0x9D)).status = 0x408 ∧
    (after .restore ((imageState 312).memWrite 32 1 0xE8)).status = 0x408 ∧
    (after .restore (imageState 313)).status = 0x408 ∧ (after .restore (imageState 0xFFFFFFFF)).einfo = 0x13000000 := by
  decide +kernel

/-- A vector that starts with the values given and goes on with `d`. -/
def padded {α : Type} (n : Nat) (l : List α) (d : α) : Vector α n :=
  ⟨((l ++ List.replicate n d).take n).toArray, by simp⟩

/-- A seeded state that draws the words `w1`, `w2`, … of V1 for `n1` and `n2` first (V6: the register words whose tempering they
are), with the registers as given. -/
def drawing (regs : List Word64 := []) (n1 : Word64 := 0x0EA48D22BA7B89F8) (n2 : Word64 := 0xE4E7B6BA5C866509) : State :=
  { seeded42 regs with gen := { mt := padded 312 [n1, n2] 0, mti := 0 } }

/-- V9, rows 1 and 4. -/
theorem test_nbytes : (after (.nbytes 0) (drawing [11])).memRead 0 8 = 0xC151DF7D6EE5E2D6 ∧
    (after (.nbytes 0) (drawing [11])).memRead 8 3 = 0x2502A8 ∧ (after (.nbytes 0) (drawing [11])).gen.mti = 2 := by decide +kernel

theorem test_nbytesz : (after (.nbytesz 0) (drawing [3])).memRead 0 4 = 0x00E5E2D6 ∧
    (after (.nbytesz 0) (drawing [4096])).status = 0x609 := by decide +kernel

/-- V10: each row draws `w1`, or `w2` where the row says so. -/
theorem test_integer_outputs :
    (after (.nu64 1) drawing).reg 1 = 0xC151DF7D6EE5E2D6 ∧ (after (.nu32 1) drawing).reg 1 = 0x6EE5E2D6 ∧
    (after (.ni64 1) drawing).reg 1 = 0xC151DF7D6EE5E2D6 ∧ (after (.ni32 1) drawing).reg 1 = 0x6EE5E2D6 ∧
    (after (.ni32 1) (drawing [] 0xE4E7B6BA5C866509)).reg 1 = 0xFFFFFFFFB92502A8 := by decide +kernel

theorem test_bounded_outputs :
    (after (.nu64r 2 0 1) (drawing [10, 20])).reg 2 = 18 ∧ (after (.nu64m 2 0) (drawing [99])).reg 2 = 75 ∧
    (after (.ni64r 2 0 1) (drawing [-100, 100])).reg 2 = 51 ∧ (after (.ni64m 2 0) (drawing [99])).reg 2 = 75 ∧
    (after (.nu32r 2 0 1) (drawing [0xFFFFFFFF0000000A, 20])).reg 2 = 18 ∧
    (after (.nu32m 2 0) (drawing [6541])).reg 2 = 4940 ∧ (after (.ni32r 2 0 1) (drawing [-5, 5])).reg 2 = 3 ∧
    (after (.ni32m 2 0) (drawing [6541])).reg 2 = 4940 := by decide +kernel

theorem test_bounded_refused :
    (after (.nu64r 2 0 1) (drawing [20, 10])).status = 0x609 ∧ (after (.ni64m 2 0) (drawing [-1])).status = 0x609 ∧
    (after (.ni32m 2 0) (drawing [0x80000000])).status = 0x609 ∧ (after (.nu64r 2 0 1) (unseeded [20, 10])).status = 0x208 := by
  decide +kernel

/-- V11. -/
theorem test_double_outputs :
    (after (.nd 2) drawing).reg 2 = 0x3FE82A3BEFADDCBE ∧ (after (.ntd 2) drawing).reg 2 = 0x3FE82A3BEFADDCBC ∧
    (after (.ndm 2 0) (drawing [0x4024000000000000])).reg 2 = 0x401E34CAEB9953EE ∧
    (after (.ntdm 2 0) (drawing [0x4024000000000000])).reg 2 = 0x401E34CAEB9953EB ∧
    (after (.ndr 2 0 1) (drawing [0xBFF0000000000000, 0x3FF0000000000000])).reg 2 = 0x3FE05477DF5BB97C ∧
    (after (.ntdr 2 0 1) (drawing [0xBFF0000000000000, 0x3FF0000000000000])).reg 2 = 0x3FE05477DF5BB978 := by decide +kernel

/-- V11: the accepted −0.0, and refused maxima and ranges. -/
theorem test_double_refused :
    (after (.ndm 2 0) (drawing [0x8000000000000000])).reg 2 = 0x8000000000000000 ∧
    (after (.ndm 2 0) (drawing [0x7FF8000000000000])).status = 0x609 ∧
    (after (.ndr 2 0 1) (drawing [0xFFEFFFFFFFFFFFFF, 0x7FEFFFFFFFFFFFFF])).status = 0x609 := by decide +kernel

/-- V11: pairs, low register first, −2.5 and 7.25 as the range. -/
theorem test_fixed_outputs :
    (let t := after (.nhm 2 0) (drawing [0, 10]); (t.reg 2, t.reg 3)) = (0x8D32BAE654FADC63, 7) ∧
    (let t := after (.nthm 2 0) (drawing [0, 10]); (t.reg 2, t.reg 3)) = (0x8D32BAE654FADC5C, 7) ∧
    (let t := after (.nhr 0 0 2) (drawing [0x8000000000000000, 0xFFFFFFFFFFFFFFFD, 0x4000000000000000, 7]);
      (t.reg 0, t.reg 1)) = (0xDCDE4306F94163AD, 4) ∧
    (let t := after (.nthr 0 0 2) (drawing [0x8000000000000000, 0xFFFFFFFFFFFFFFFD, 0x4000000000000000, 7]);
      (t.reg 0, t.reg 1)) = (0xDCDE4306F94163A6, 4) ∧
    (let t := after (.nh 2) (drawing [9, 9, 9, 9]); (t.reg 2, t.reg 3)) = (0xC151DF7D6EE5E2D6, 0) ∧
    (let t := after (.nth 2) (drawing [9, 9, 9, 9]); (t.reg 2, t.reg 3)) = (0xC151DF7D6EE5E2D6, 0) := by decide +kernel

/-- R201: the word 0 selects the first prime; V10: `w1` selects index 4940. -/
theorem test_witness : (after (.witness 3) (drawing [] 0)).reg 3 = 2 ∧ (after (.witness 3) State.reset).status = 0x208 ∧
    witnessIndex 0xC151DF7D6EE5E2D6 = 4940 := by decide +kernel

/-- V12: rows that steps 1 and 2 decide, unseeded (D36), and V23's last row. -/
theorem test_isprime_small : (after (.isprime 1 0 5) (unseeded [2])).reg 1 = 1 ∧ (after (.isprime 1 0 5) (unseeded [1])).reg 1 = 0 ∧
    (after (.isprime 1 0 5) (unseeded [0, 7])).reg 1 = 0 ∧ (after (.isprime 1 0 5) (unseeded [-7, 7])).reg 1 = 0 ∧
    (after (.isprime 1 0 5) (unseeded [97])).reg 1 = 1 ∧ (after (.isprime 1 0 5) (unseeded [65535, 7])).reg 1 = 0 ∧
    (after (.isprime 1 0 5) (unseeded [65536, 7])).reg 1 = 0 := by decide +kernel

/-- V13: the strong pseudoprime passes for 2 and 19 and fails for 23. -/
theorem test_round : splitTwos 64 (341550071728321 - 1) = (6, 5336719870755) ∧
    roundPasses 341550071728321 6 5336719870755 2 = true ∧ roundPasses 341550071728321 6 5336719870755 19 = true ∧
    roundPasses 341550071728321 6 5336719870755 23 = false := by decide +kernel

/-- R229: with words of zero every partner is entry 0, so one pass moves the last entry to the front, and five passes over four
entries do so once in all. R165: `VAL[0]` of V14 and V24, from the first word. -/
theorem test_perlin_tables :
    (shuffledAxis 4 { mt := Vector.replicate 312 0, mti := 0 }).1 = [3, 0, 1, 2] ∧
    fToBits (unitTrunc 0xC151DF7D6EE5E2D6) = 0x3FE82A3BEFADDCBC ∧
    fToBits (unitTrunc 0x28E837C5CB41DC3E) = 0x3FC4741BE2E5A0EC := by decide +kernel

/-- A state with the Perlin tables of V15, as that vector writes them out. -/
def perlin7 (regs : List Word64) : State :=
  { unseeded regs with
    pFreq := 8
    pbuilt := true
    val := padded 4096 [0x3FE823ECA63D6CDB, 0x3FEE60ACEA8F4698, 0x3FBE0EDCC1206960, 0x3FEC8A8D809B3FEF, 0x3FC2152FC3E853EC,
      0x3FAC352BA403FBB0, 0x3FEAA4073BD1A1D4, 0x3FECD29EC6F1E388] 0
    perm := #v[padded 8192 [1, 4, 7, 0, 6, 3, 5, 2, 1, 4, 7, 0, 6, 3, 5, 2] 0,
      padded 8192 [7, 3, 4, 6, 2, 1, 0, 5, 7, 3, 4, 6, 2, 1, 0, 5] 0,
      padded 8192 [2, 0, 3, 7, 1, 4, 6, 5, 2, 0, 3, 7, 1, 4, 6, 5] 0,
      padded 8192 [6, 7, 2, 4, 1, 3, 0, 5, 6, 7, 2, 4, 1, 3, 0, 5] 0] }

/-- V15: `PN2` and its periodicity, `PN1` over the duplicate entry. -/
theorem test_perlin_eval :
    (after (.pn2 4 0) (perlin7 [0x3FF8000000000000, 0x4004000000000000])).reg 4 = 0x3FE01C1A2F63B4DC ∧
    (after (.pn2 4 0) (perlin7 [0x4023000000000000, 0x4025000000000000])).reg 4 = 0x3FE01C1A2F63B4DC ∧
    (after (.pn1 4 0) (perlin7 [0x401E000000000000])).reg 4 = 0x3FE111444159A9E2 := by decide +kernel

/-- R233: at integer coordinates a base value is one entry of the lattice: `VAL[PERM[0][PERM[1][PERM[2][7] + 1] + 2]]`, and with
the axis T outermost. -/
theorem test_perlin_lattice_points :
    (perlin7 []).perlinBase [fOfInt 2, fOfInt 1, fOfInt 7] = some (fOfBits 0x3FECD29EC6F1E388) ∧
    (perlin7 []).perlinBase [fOfInt 2, fOfInt 1, fOfInt (-1), fOfInt 8] = some (fOfBits 0x3FE823ECA63D6CDB) := by decide +kernel

/-- V16 (c) and V23: the errors of the Perlin commands. -/
theorem test_perlin_errors : (after (.pn1 0 1) State.reset).status = 0x508 ∧ (after (.pfreq 0) (unseeded [0])).status = 0x308 ∧
    (after (.pfreq 0) (unseeded [4097])).status = 0x308 ∧ (after (.pfreq 0) (unseeded [-1])).einfo = 0x51000000 ∧
    (after (.pn1 4 0) (perlin7 [0x7FF0000000000000])).status = 0x60A := by decide +kernel

/-- V20: `POCT` takes the low half, and a count of 0 examines nothing, a NaN included. -/
theorem test_poct : (after (.poct 0) (unseeded [0x0000000100000000])).pOct = 0 ∧
    (after (.pn4 1 0) (after (.poct 2) (perlin7 [0x7FF8000000000000, 9]))).reg 1 = 0 := by decide +kernel

/-- V20, row 2: offsets (1.0, 2.0) and scales (0.5, 2.0) in two octaves over (10.5, 3.25), with the table entries that V14's build
puts where the walk looks. -/
theorem test_blend_places :
    let entries := fun (n : Nat) (l : List (Nat × Nat)) => (List.range n).map fun k => (l.lookup k).getD 0
    (after (.pn2 4 0) { unseeded [0x4025000000000000, 0x400A000000000000] with
      pbuilt := true
      pOct := 2
      pOff := #v[0x3FF0000000000000, 0x4000000000000000, 0, 0]
      pScl := #v[0x3FE0000000000000, 0x4000000000000000, 0x3FF0000000000000, 0x3FF0000000000000]
      val := padded 4096 ((entries 220 [(185, 0x3FD161D14E78F406), (8, 0x3FD187273D8BAE7E), (213, 0x3FCA8BF0E45C0880),
        (152, 0x3FE57DBFBE2B4D23), (68, 0x3FD75A0BEB387646), (134, 0x3FEB5B5019C895B3), (148, 0x3FB4C8C88942DA70),
        (216, 0x3FC44C78F9495868)]).map (BitVec.ofNat 64)) 0
      perm := #v[padded 8192 (entries 220 [(103, 185), (104, 8), (52, 213), (53, 152), (209, 68), (210, 134), (163, 148),
          (164, 216)]) 0,
        padded 8192 (entries 30 [(10, 98), (11, 47), (21, 198), (22, 152)]) 0,
        Vector.replicate 8192 0, Vector.replicate 8192 0] }).reg 4 = 0x3FE0134E26E9BE4C := by decide +kernel

/-- R227's example, and the other axis settings. -/
theorem test_axes : (after (.poff 3 .y) (unseeded [0, 0, 0, 0x4000000000000000])).pOff[1] = 0x4000000000000000 ∧
    (after (.pscl 3 .x) (unseeded [0, 0, 0, 5])).pScl[0] = 5 ∧ (after (.soff 3 .t) (unseeded [0, 0, 0, 5])).sOff[3] = 5 ∧
    (after (.sscl 3 .z) (unseeded [0, 0, 0, 5])).sScl[2] = 5 := by decide +kernel

/-- V17: the entries are the low bytes of the words `w1` to `w8`; each entry stands twice. -/
theorem test_simplex_build :
    let sp := spTable [0xC151DF7D6EE5E2D6, 0xA3978FB9B92502A8, 0xC08C967F0E5E7B0A, 0x22E2C43F8A1AD34E, 0xE73CA28E4D361955,
      0x1814DC629C7F4F7C, 0x93170A1965D42420, 0x5F75917A3EB7B900]
    sp.toList.take 8 = [214, 168, 10, 78, 85, 124, 32, 0] ∧
    (sp.toList.drop 256).take 8 = [214, 168, 10, 78, 85, 124, 32, 0] := by decide +kernel

/-- Built simplex tables with the entries given and 0 elsewhere, to lead the evaluations of R274 to R276 to the gradients that
their worked examples name. -/
def simplexWith (regs : List Word64) (sp : List (Nat × Byte)) (sm12 : List (Nat × Fin 12)) (sm32 : List (Nat × Fin 32)) : State :=
  { unseeded regs with
    sbuilt := true
    sp := ⟨((List.range 512).map fun k => (sp.lookup k).getD 0).toArray, by simp⟩
    sm12 := ⟨((List.range 512).map fun k => (sm12.lookup k).getD 0).toArray, by simp⟩
    sm32 := ⟨((List.range 512).map fun k => (sm32.lookup k).getD 0).toArray, by simp⟩ }

/-- (1.2, −0.7, 5.5, 0.3), the point of the worked examples. -/
def point : List Word64 := [0x3FF3333333333333, 0xBFE6666666666666, 0x4016000000000000, 0x3FD3333333333333]

/-- R274's worked example: `g = (7, 8, 11)`. -/
theorem test_sn2 : (after (.sn2 4 0) (simplexWith point [(255, 208), (256, 214)] [(209, 7), (215, 8), (216, 11)] [])).reg 4 =
    0x3FDB61A21E841730 := by decide +kernel

/-- R275's worked example: `g = (9, 1, 1, 8)` with the ordering (0,0,1, 0,1,1). -/
theorem test_sn3 : (after (.sn3 4 0) (simplexWith point [(8, 10), (11, 20), (12, 30)]
    [(3, 9), (23, 1), (33, 1), (34, 8)] [])).reg 4 = 0x3FE4774B5A90E4B5 := by decide +kernel

/-- R276's worked example: `g = (23, 24, 12, 23, 7)` with the ranks (0, 2, 3, 1). -/
theorem test_sn4 : (after (.sn4 4 0) (simplexWith point [(8, 10), (11, 20), (12, 30), (3, 40), (48, 60), (62, 70)] []
    [(3, 23), (23, 24), (33, 12), (73, 23), (74, 7)])).reg 4 = 0x3FD665AF06C3C860 := by decide +kernel

/-- V21: one pass over a lattice point, no pass, and a refused size. -/
theorem test_smip : (after (.smip 4 0) (simplexWith [0x3FF0000000000000, 0x3FF0000000000000, 0x4000000000000000,
      0x4008000000000000] [] [] [])).reg 4 = 0x3FE0000000000000 ∧
    (after (.smip 4 0) (simplexWith [0x3FE0000000000000, 0, 0, 0, 9] [] [] [])).reg 4 = 0 ∧
    (after (.smip 4 0) (simplexWith [0xBFF0000000000000] [] [] [])).status = 0x60C := by decide +kernel

/-- R268, R269: the frequency setter does nothing, the octave count is the low half. -/
theorem test_sfreq_soct : after (.sfreq 0) (unseeded [16]) = unseeded [16] ∧
    (after (.soct 0) (unseeded [0xFFFFFFFF])).sOct.toInt = -1 := ⟨rfl, by decide +kernel⟩

/-- R230, R272: the explicit rebuilds set their guard bits, and use the seed that stands. -/
theorem test_rebuilds : (after .sbuild State.reset).status = 4 ∧ (after .pbuild State.reset).status = 2 ∧
    after .sbuild State.reset = { after (.sseed 0) State.reset with sSeed := 0 } := ⟨by decide +kernel, by decide +kernel, rfl⟩

/-! The host port (V23). -/

/-- The state after one host access. -/
def accessed (a : HostAccess) (s : State) : State :=
  match step { s with port := a :: s.port } with
  | .next t => t
  | .fault _ => s
  | .refused _ => s

theorem test_dropped : accessed (.write 0 8 0x10010000) (after (.nu64 0) State.reset) = after (.nu64 0) State.reset ∧
    accessed (.write 0 8 0x02000000) (after (.nu64 0) State.reset) = after (.nu64 0) State.reset := ⟨rfl, rfl⟩

theorem test_bus : ((accessed (.read 0 8) seeded42).status, (accessed (.read 0 8) seeded42).einfo) = (0x709, 0) ∧
    ((accessed (.write 8 8 5) seeded42).status, (accessed (.write 8 8 5) seeded42).einfo) = (0x709, 0x0000000100000008) ∧
    (accessed (.write 0x200 4 5) seeded42).einfo = 0x0000000100000200 ∧
    (accessed (.read 0x20 8) seeded42).einfo = 0x20 ∧
    (accessed (.read 0 8) (after (.nu64r 2 0 1) (drawing [20, 10]))).status = 0x609 := by decide +kernel

theorem test_window : (accessed (.read 0x1003 1) (accessed (.write 0x1000 8 0x1122334455667788) State.reset)).rdata = 0x55 ∧
    (accessed (.read 0x210 8) (accessed (.write 0x210 8 77) State.reset)).rdata = 77 := by decide +kernel

theorem test_reset : (accessed .reset (seeded42 [9])).status = 0 ∧ (accessed .reset (seeded42 [9])).reg 0 = 0 ∧
    (accessed .reset (seeded42 [9])).epoch = 1 := by decide +kernel

/-! For every statement with hypotheses: states and operands that meet the hypotheses of each clause together. -/

theorem witness_DecodeOfEncodeIsTheCommand : (Instr.smip 15 12).wellFormed = true := by decide

theorem witness_DecodedWordIsTheCommandsWord : decode 0x6CFC0000 = .ok (.smip 15 12) := by decide

theorem witness_MaskDecidesTheShape : formatOf 0x20 = some .d ∧ (splitWord 0x20000001).op = 0x20 ∧
    (0x20000001 : Word32) &&& Format.d.mask ≠ (0x20 : BitVec 8).setWidth 32 <<< 24 := by decide

theorem witness_PairsAndGroupsStayBelowR16 : 14 + 1 < 16 ∧ 12 + 4 ≤ 16 ∧ 3 < 4 ∧ (Instr.nh 15).wellFormed = false := by decide

/-- A word of 32 bits, zero-extended, is below 2^32. -/
theorem zext_lt (w : Word32) : (w.setWidth 64).toNat < 2 ^ 32 := by
  rw [BitVec.toNat_setWidth]; have := w.isLt; omega

theorem witness_IllegalValuesLatchIllegal : State.reset.ecode = 0 ∧
    ∀ i : Instr, i.wellFormed = true → (0x0000000120000000 : Word64) ≠ (encode i).setWidth 64 := by
  refine ⟨rfl, fun i _ h => ?_⟩
  have := zext_lt (encode i)
  rw [← h] at this
  exact absurd this (by decide)

theorem witness_StepRunsTheDecodedCommand :
    ({ State.reset with port := [.write 0 8 0x20000000] } : State).port = .write 0x000 8 0x20000000 :: [] ∧
    State.reset.ecode = 0 ∧ decodeCommand 0x20000000 = .ok (.nu64 0) ∧ (Instr.nu64 0).wellFormed = true ∧
    State.reset.port = [] := by decide

theorem witness_HostSeesTheRegisterMap : 4095 < 4096 ∧
    State.reset.hostRead (0x0C8 : BitVec 13).toNat 8 = some 256 ∧ reservedOffset 0xFF8 ∧
    0x280 < 0x1000 ∧ 0x280 ≠ 0x000 ∧ ¬(0x200 ≤ 0x280 ∧ 0x280 < 0x280) := by
  refine ⟨by decide, by decide, ?_, by decide⟩
  unfold reservedOffset; decide

theorem witness_RefusedAccessesLatchBus : refusedRead (0x000 : BitVec 13).toNat 8 ∧ refusedRead (0xFF8 : BitVec 13).toNat 8 ∧
    refusedRead (0x1FFF : BitVec 13).toNat 2 ∧ refusedWrite (0x008 : BitVec 13).toNat 8 ∧
    refusedWrite (0x280 : BitVec 13).toNat 8 ∧ refusedWrite (0x200 : BitVec 13).toNat 4 := by
  refine ⟨?_, ?_, ?_, ?_, ?_, ?_⟩ <;> simp only [refusedRead, refusedWrite, badShape, reservedOffset] <;> decide

theorem witness_BufferIsLittleEndian : 0x1000 ≤ (0x1FF8 : BitVec 13).toNat ∧ (8 = 1 ∨ 8 = 2 ∨ 8 = 4 ∨ 8 = 8) ∧
    (0x1FF8 : BitVec 13).toNat % 8 = 0 ∧ 7 < 8 := by decide

/-- A state with a latched error: the first row of V23. -/
def latched : State := after (.nu64 0) State.reset

theorem witness_FirstErrorWins : latched.ecode ≠ 0 ∧ HostAccess.read 0x000 8 ≠ .reset ∧
    HostAccess.read 0x000 8 ≠ .write 0x000 8 0x0000000001000000 ∧
    hostAccess (.read 0x000 8) latched = .next { latched with rdata := 0 } := ⟨by decide, by decide, by decide, rfl⟩

theorem witness_LatchedErrorDropsCommands : latched.ecode ≠ 0 ∧ (0x20000000 : Word64) ≠ 0x0000000001000000 ∧
    latched.hostRead (0x010 : BitVec 13).toNat 8 = some 0x20000000 ∧ (0x018 : BitVec 13).toNat ≠ 0x008 ∧
    (0x018 : BitVec 13).toNat ≠ 0x010 ∧ windowAccess (0x1FFF : BitVec 13).toNat 1 = true ∧
    windowAccess (0x1FF8 : BitVec 13).toNat 8 = true := by decide

theorem witness_ErrorsChangeOnlyTheLatch : State.reset.ecode = 0 ∧ exec (.nu64 0) State.reset = .next latched ∧
    latched.ecode ≠ 0 ∧ hostAccess (.write 0x000 8 0x20000000) State.reset = .next latched := ⟨rfl, rfl, by decide, rfl⟩

theorem witness_ClrerrAndNop : (1 : BitVec 32) ≠ 0 ∧ (0 : Word64) ≠ 0x0000000001000000 ∧ latched.ecode ≠ 0 ∧ State.reset.ecode = 0 := by decide

theorem no_factor_of_large_prime {n : Nat} (h : n.Prime) (hn : 65535 < n) :
    ∀ p : Nat, p.Prime → p ≤ 65535 → ¬ (p : Int) ∣ (n : Int) := by
  intro p hp hle hd
  have := (Nat.prime_dvd_prime_iff_eq hp h).1 (Int.natCast_dvd_natCast.1 hd)
  omega

theorem prime_65537 : Nat.Prime 65537 := by norm_num

theorem witness_UnseededCommandsRaise : needsSeed (.nthr 14 14 14) = true ∧ (Instr.nthr 14 14 14).wellFormed = true ∧
    (unseeded [65537]).seeded = false ∧ (5 : BitVec 12) ≠ 0 ∧ 65535 < (unseeded [65537]).regS 0 ∧
    (∀ p : Nat, p.Prime → p ≤ 65535 → ¬ (p : Int) ∣ (unseeded [65537]).regS 0) ∧
    0x50 ≤ ((Instr.pfreq 0).fields.op).toNat ∧ (unseeded [65537]).ecode = 0 ∧
    exec (.pfreq 0) (unseeded [65537]) = .next (after (.pfreq 0) (unseeded [65537])) :=
  ⟨rfl, rfl, rfl, by decide, by decide, no_factor_of_large_prime prime_65537 (by decide), by decide, rfl, rfl⟩

theorem pn1_answers_next (s : State) : ∃ t, exec (.pn1 0 0) s = .next t := by
  show ∃ t, execPn1 0 0 s = .next t
  unfold execPn1
  exact evaluate_answers_next _ _

theorem sn2_answers_next (s : State) : ∃ t, exec (.sn2 0 0) s = .next t := by
  show ∃ t, execSn2 0 0 s = .next t
  unfold execSn2
  exact evaluate_answers_next _ _

theorem witness_UnbuiltCommandsRaise : (Instr.pn4 0 12).wellFormed = true ∧ State.reset.pbuilt = false ∧
    (Instr.smip 0 12).wellFormed = true ∧ State.reset.sbuilt = false ∧ (perlin7 []).pbuilt = true ∧ (perlin7 []).ecode = 0 ∧
    (∃ t, exec (.pn1 0 0) (perlin7 []) = .next t) ∧ (∃ t, exec (.sn2 0 0) (simplexWith [] [] [] []) = .next t) ∧
    (simplexWith [] [] [] []).sbuilt = true ∧ (simplexWith [] [] [] []).ecode = 0 ∧
    HostAccess.write 0 8 0 ≠ .reset ∧ hostAccess (.write 0 8 0) (perlin7 []) = .next (perlin7 []) :=
  ⟨by decide, rfl, by decide, rfl, rfl, rfl, pn1_answers_next _, sn2_answers_next _, rfl, rfl, by decide, rfl⟩

theorem witness_SeedaSeedsFromTheKey : ((unseeded [1]).reg 0).toNat = 1 ∧ ((unseeded [512]).reg 0).toNat = 512 ∧
    ((unseeded [0]).reg 0).toNat = 0 ∧ 512 < ((unseeded [513]).reg 0).toNat ∧
    ({ mt := Vector.replicate 312 0, i := 1, j := 0 } : ArrayLoop).i.val = 0 + 1 ∧
    ({ mt := Vector.replicate 312 0, i := 311, j := 0 } : ArrayLoop).i.val = 310 + 1 := by decide

theorem witness_NextWordRegeneratesInPlace : 312 ≤ (initState 42).mti.toNat ∧
    ({ initState 42 with mti := 311 } : Gen).mti.toNat < 312 ∧ 155 < 156 ∧ 154 < 155 := by decide

theorem witness_UnboundedOutputs : drawing.seeded = true ∧ State.reset.seeded = false := by decide

theorem witness_SaveWritesTheSerialisedState : drawing.seeded = true ∧ State.reset.seeded = false ∧ 2540 ≤ 2540 := by decide

/-- The conditions of R129, as the statement about `RESTORE` has them. -/
def imageGood (s : State) : Prop :=
  s.memRead 0 4 = 312 ∧ s.memRead 4 4 = 156 ∧
    s.memRead 8 8 = Config.gen.upperMask.toNat ∧ s.memRead 16 8 = Config.gen.lowerMask.toNat ∧
    s.memRead 24 8 = Config.gen.mag0.toNat ∧ s.memRead 32 8 = Config.gen.mag1.toNat ∧
    0 ≤ (BitVec.ofNat 32 (s.memRead 40 4)).toInt ∧ (BitVec.ofNat 32 (s.memRead 40 4)).toInt ≤ 312

theorem witness_RestoreChecksTheImage : imageGood (imageState 312) ∧ imageGood (imageState 0) ∧ ¬imageGood (imageState 313) := by
  unfold imageGood; decide +kernel

theorem witness_RestoreUndoesSave : drawing.seeded = true ∧ drawing.gen.mti.toNat ≤ 312 ∧
    exec .save drawing = .next (drawing.storeBytes 0 (serialise drawing.gen)) ∧
    ∀ a < 2540, ({ drawing.storeBytes 0 (serialise drawing.gen) with gen := initState 7, seeded := false } : State).bufRead a =
      (drawing.storeBytes 0 (serialise drawing.gen)).bufRead a := by
  refine ⟨rfl, by decide, rfl, fun _ _ => ?_⟩
  simp only [State.bufRead]

theorem witness_NbytesFillsTheBuffer : (drawing [4096]).seeded = true ∧ ((drawing [4096]).reg 0).toNat ≤ 4096 ∧
    7 < 8 ∧ 8 * 511 + 7 < ((drawing [4096]).reg 0).toNat ∧ ((drawing [4095]).reg 0).toNat + 1 ≤ 4096 ∧
    4096 < ((drawing [4097]).reg 0).toNat ∧ 4096 < ((drawing [4096]).reg 0).toNat + 1 ∧ State.reset.seeded = false := by decide

theorem witness_Map64SpreadsWordsEvenly : (5 : Int) ≤ 5 ∧ (0 : Int) ≤ 2 ^ 64 - 1 ∧ (2 ^ 64 - 1 : Int) - 0 < 2 ^ 64 ∧
    (2 ^ 64 - 1 : Int) - 0 + 1 = 2 ^ 64 ∧ (10 : Int) ≤ 20 := by decide

theorem witness_BoundedOutputs64 :
    (let s := drawing [7, 7]; s.seeded = true ∧ (s.reg 0).toNat ≤ (s.reg 1).toNat ∧ (s.reg 0).toInt ≤ (s.reg 1).toInt) ∧
    (let s := drawing [8, 7]; s.seeded = true ∧ (s.reg 1).toNat < (s.reg 0).toNat ∧ (s.reg 1).toInt < (s.reg 0).toInt) ∧
    0 ≤ ((drawing [0]).reg 0).toInt ∧ ((drawing [-1]).reg 0).toInt < 0 ∧ State.reset.seeded = false := by decide

theorem witness_BoundedOutputs32 :
    (let s := drawing [0xFFFFFFFF00000007, 7]; s.seeded = true ∧ (s.reg 0).toNat % 2 ^ 32 ≤ (s.reg 1).toNat % 2 ^ 32 ∧
      ((s.reg 0).extractLsb' 0 32).toInt ≤ ((s.reg 1).extractLsb' 0 32).toInt ∧ 0 ≤ ((s.reg 0).extractLsb' 0 32).toInt) ∧
    (let s := drawing [8, 7]; (s.reg 1).toNat % 2 ^ 32 < (s.reg 0).toNat % 2 ^ 32 ∧
      ((s.reg 1).extractLsb' 0 32).toInt < ((s.reg 0).extractLsb' 0 32).toInt) ∧
    ((drawing [0x80000000]).reg 0).extractLsb' 0 32 = 0x80000000 ∧ (0x80000000 : BitVec 32).toInt < 0 ∧
    State.reset.seeded = false := by decide

theorem witness_BoundedOutputsStayInRange :
    let s := drawing [10, 20]
    s.ecode = 0 ∧ ∀ i ∈ [Instr.nu64r 2 0 1, .nu64m 2 0, .ni64r 2 0 1, .ni64m 2 0, .nu32r 2 0 1, .nu32m 2 0, .ni32r 2 0 1,
      .ni32m 2 0], (after i s).ecode = 0 ∧ exec i s = .next (after i s) := by
  refine ⟨rfl, ?_⟩
  simp only [List.forall_mem_cons]
  exact ⟨⟨rfl, rfl⟩, ⟨rfl, rfl⟩, ⟨rfl, rfl⟩, ⟨rfl, rfl⟩, ⟨rfl, rfl⟩, ⟨rfl, rfl⟩, ⟨rfl, rfl⟩, ⟨rfl, rfl⟩, by simp⟩

theorem witness_UnitDoublesOfAWord : (0 : Word64).toNat / 2 ^ 11 ≤ (BitVec.allOnes 64).toNat / 2 ^ 11 := by decide

/-- −0.0 is a good maximum, a NaN is none; −1.0 to 1.0 is a good range, the widest one is none. -/
theorem witness_DoubleOutputs :
    (let a := (drawing [0x8000000000000000]).regF 0; fFinite a = true ∧ fLt a fZero = false) ∧
    (let a := (drawing [0x7FF8000000000000]).regF 0; ¬(fFinite a = true ∧ fLt a fZero = false)) ∧
    (let a := (drawing [0xBFF0000000000000, 0x3FF0000000000000]).regF 0
     let b := (drawing [0xBFF0000000000000, 0x3FF0000000000000]).regF 1
     fFinite a = true ∧ fFinite b = true ∧ fLt b a = false ∧ fFinite (fSub b a) = true) ∧
    (let a := (drawing [0xFFEFFFFFFFFFFFFF, 0x7FEFFFFFFFFFFFFF]).regF 0
     let b := (drawing [0xFFEFFFFFFFFFFFFF, 0x7FEFFFFFFFFFFFFF]).regF 1
     ¬(fFinite a = true ∧ fFinite b = true ∧ fLt b a = false ∧ fFinite (fSub b a) = true)) ∧ drawing.seeded = true := by
  decide +kernel

theorem witness_TruncatedDoubleStaysBelowMax : fFinite (fOfBits 0x0010000000000001) = true ∧
    fLt (.fin false (2 ^ 52)) (fOfBits 0x0010000000000001) = true := by decide +kernel

theorem witness_RoundingIsToNearestEven : 0 < 3 ∧ (2 ^ 54 - 1) * 2 ^ 2044 * 3 ≤ (2 ^ 54 - 1) * 2 ^ 2044 * 3 ∧
    (2 ^ 54 - 1) * 2 ^ 2044 * 3 - 1 < (2 ^ 54 - 1) * 2 ^ 2044 * 3 ∧ representable (2 ^ 53) :=
  ⟨by decide, le_refl _, by decide +kernel, 2 ^ 52, 1, by decide, by decide, by decide +kernel⟩

/-- The operands of the arithmetic clauses, and the patterns of both ends of each class: 0, the largest number, -inf and a NaN. -/
theorem witness_RoundingIsToNearestEven_operands : (2 : Int) + -1 ≠ 0 ∧ (1 : Int) + -1 = 0 ∧ (2 : Int) - 1 ≠ 0 ∧ (1 : Int) - 1 = 0 ∧
    (-(2 ^ 53) : Int).natAbs ≤ 2 ^ 53 ∧ fFinite .nan = false ∧
    (0 : Word64).toNat / 2 ^ 52 % 2 ^ 11 < 2047 ∧ (0xFFEFFFFFFFFFFFFF : Word64).toNat / 2 ^ 52 % 2 ^ 11 < 2047 ∧
    (0xFFF0000000000000 : Word64).toNat / 2 ^ 52 % 2 ^ 11 = 2047 ∧ (0xFFF0000000000000 : Word64).toNat % 2 ^ 52 = 0 ∧
    (0x7FF0000000000001 : Word64).toNat / 2 ^ 52 % 2 ^ 11 = 2047 ∧ (0x7FF0000000000001 : Word64).toNat % 2 ^ 52 ≠ 0 ∧
    fOfBits 0xFFEFFFFFFFFFFFFF ≠ .nan := by decide +kernel

theorem witness_FixedPointOutputs :
    (drawing [0, 10] 0x03A9803FEAA40155).nextDraw = BitVec.allOnes 64 ∧ drawing.nextDraw ≠ BitVec.allOnes 64 ∧
    (14 : Reg).val ≤ 14 ∧ 0 ≤ (drawing [0, 0]).regQ 0 ∧ 0 < (drawing [0, 10]).regQ 0 ∧
    (drawing [5, 6, 5, 6]).regQ 0 ≤ (drawing [5, 6, 5, 6]).regQ 2 ∧
    (drawing [0x8000000000000000, -3, 0, 7]).regQ 0 < (drawing [0x8000000000000000, -3, 0, 7]).regQ 2 ∧
    (drawing [0, 0x8000000000000000]).regQ 0 < 0 ∧ (drawing [1, 0, 0, 0]).regQ 2 < (drawing [1, 0, 0, 0]).regQ 0 ∧
    drawing.seeded = true ∧ State.reset.seeded = false := by decide +kernel

theorem witness_WitnessIsATablePrime : drawing.seeded = true ∧ State.reset.seeded = false := by decide

theorem witness_MillerRabinRound : 65535 < 65537 ∧ 65537 < 2 ^ 63 ∧ 65537 - 1 = 2 ^ 16 * 1 ∧ 1 % 2 = 1 ∧ 1 ≤ 16 := by decide

/-- 4295229443 = 65537 × 65539 has no factor below 65536 (V12). -/
theorem no_factor_of_product : ∀ p : Nat, p.Prime → p ≤ 65535 → ¬ (p : Int) ∣ 4295229443 := by
  intro p hp hle hd
  have hd : p ∣ 65537 * 65539 := by exact_mod_cast hd
  rcases (Nat.Prime.dvd_mul hp).1 hd with h | h
  · have := (Nat.prime_dvd_prime_iff_eq hp prime_65537).1 h; omega
  · have := (Nat.prime_dvd_prime_iff_eq hp (by norm_num : Nat.Prime 65539)).1 h; omega

/-- The three steps that decide, with and without a factor. -/
theorem witness_IsprimeRunsItsSteps_decided : (unseeded [0]).regS 0 ≤ 0 ∧ 0 < (unseeded [1]).regS 0 ∧
    (unseeded [65535]).regS 0 ≤ 65535 ∧ 65535 < (unseeded [65536]).regS 0 ∧
    (∃ p : Nat, p.Prime ∧ p ≤ 65535 ∧ (p : Int) ∣ (unseeded [65536]).regS 0) ∧
    ¬(∃ p : Nat, p.Prime ∧ p ≤ 65535 ∧ (p : Int) ∣ (unseeded [65537]).regS 0) ∧ (5 : BitVec 12) ≠ 0 ∧
    (unseeded [65537]).seeded = false :=
  ⟨by decide, by decide, by decide, by decide, ⟨2, Nat.prime_two, by decide, by decide⟩,
    fun ⟨p, hp, hle, hd⟩ => no_factor_of_large_prime prime_65537 (by decide) p hp hle hd, by decide, rfl⟩

/-- A prime passes its round, and a composite without small factors fails one; the words drawn are 0 and select the prime 2. -/
theorem witness_IsprimeRunsItsSteps_rounds :
    (let s := drawing [65537] 0
     s.seeded = true ∧ ¬(∃ p : Nat, p.Prime ∧ p ≤ 65535 ∧ (p : Int) ∣ s.regS 0) ∧
     (s.regS 0).toNat - 1 = 2 ^ 16 * 1 ∧ (1 : BitVec 12).toNat = 1 ∧
     roundPasses (s.regS 0).toNat 16 1 (witnessOf (wordDrawn s.gen 0)) = true) ∧
    (let s := drawing [4295229443] 0
     s.seeded = true ∧ ¬(∃ p : Nat, p.Prime ∧ p ≤ 65535 ∧ (p : Int) ∣ s.regS 0) ∧
     (s.regS 0).toNat - 1 = 2 ^ 1 * 2147614721 ∧ 2147614721 % 2 = 1 ∧ 0 < (5 : BitVec 12).toNat ∧
     roundPasses (s.regS 0).toNat 1 2147614721 (witnessOf (wordDrawn s.gen 0)) = false) :=
  ⟨⟨rfl, fun ⟨p, hp, hle, hd⟩ => no_factor_of_large_prime prime_65537 (by decide) p hp hle hd, by decide, by decide,
      by decide +kernel⟩,
    ⟨rfl, fun ⟨p, hp, hle, hd⟩ => no_factor_of_product p hp hle hd, by decide, by decide, by decide, by decide +kernel⟩⟩

theorem witness_PrimeIsAlwaysAnsweredOne : drawing.seeded = true ∧ Nat.Prime 65537 ∧ (drawing [65537]).regS 0 = (65537 : Nat) :=
  ⟨rfl, prime_65537, by decide⟩

theorem witness_PerlinRebuilds : ((unseeded [1]).reg 0).toInt = 1 ∧ ((unseeded [4096]).reg 0).toInt = 4096 ∧
    ((unseeded [0]).reg 0).toInt < 1 ∧ 4096 < ((unseeded [4097]).reg 0).toInt ∧
    (let s : State := { State.reset with pFreq := 4096 }; s.freq ≤ 4096 ∧ 4095 < s.freq ∧ 8191 < 2 * s.freq ∧
      20479 < 5 * s.freq ∧ 3 < 4) ∧
    (drawing [3]).pSeed = State.reset.pSeed ∧ (drawing [3]).pFreq = State.reset.pFreq := by decide

/-- Two coordinates, with offsets and scales for four. -/
theorem witness_BlendSumsItsOctaves_axes : 1 < [fOne, fHalf].length ∧ 1 < [fZero, fOne, fOne, fOne].length ∧
    placeCoords [fOne, fHalf] [fZero, fOne, fOne, fOne] [fOne, fHalf, fOne, fOne] = [fOne, .fin false (3 * 2 ^ 1072)] := by
  decide +kernel

/-- A base that gives the first coordinate back, and one that has no value. -/
theorem witness_BlendSumsItsOctaves : (0 : Int) ≤ 0 ∧ (0 : Int) < 2 ∧
    (∀ k < (2 : Int).toNat, (fun c : List F64 => some (c.getD 0 fZero)) (octaveCoords (placeCoords [fOne] [fZero] [fOne]) k) =
      some (.fin false (2 ^ (1074 + k)))) ∧
    (∃ k < (2 : Int).toNat, (fun _ : List F64 => (none : Option F64)) (octaveCoords (placeCoords [fOne] [fZero] [fOne]) k) = none) := by
  refine ⟨by decide, by decide, ?_, 0, by decide, rfl⟩
  intro k hk
  have : k = 0 ∨ k = 1 := by have : (2 : Int).toNat = 2 := rfl; omega
  rcases this with rfl | rfl <;> decide +kernel

/-- Coordinates at the four registers up to `r15`; a count of 0, of 1 with finite coordinates, and of 1 with a NaN. -/
theorem witness_PerlinEvaluationsComplete : (12 : Reg).val + 4 ≤ 16 ∧
    (perlin7 []).pbuilt = true ∧ ({ perlin7 [] with pOct := 0 } : State).pOct.toInt ≤ 0 ∧ 0 < (perlin7 []).pOct.toInt ∧
    (∀ k < (perlin7 []).pOct.toInt.toNat, perlinEvaluable
      (octaveCoords (placeCoords ((perlin7 []).group 12 4) (axisValues (perlin7 []).pOff) (axisValues (perlin7 []).pScl)) k)) ∧
    (∃ k < (perlin7 [0x7FF8000000000000]).pOct.toInt.toNat, ¬perlinEvaluable
      (octaveCoords (placeCoords ((perlin7 [0x7FF8000000000000]).group 0 1) (axisValues (perlin7 []).pOff)
        (axisValues (perlin7 []).pScl)) k)) := by
  refine ⟨by decide, rfl, by decide, by decide, ?_, 0, by decide, ?_⟩
  · intro k hk
    have hk : k = 0 := by have : (perlin7 []).pOct.toInt.toNat = 1 := rfl; omega
    subst hk
    unfold perlinEvaluable
    decide +kernel
  · unfold perlinEvaluable
    decide +kernel

theorem witness_PerlinBaseWalksTheLattice : 1 ≤ State.reset.freq := by decide

/-- −1.5 and 6.5 with the period 8. -/
theorem witness_PerlinBaseIsPeriodic : 1 ≤ (perlin7 []).freq ∧
    List.Forall₂ (fun v v' : F64 => ∃ (a b : Bool) (m n : Nat) (k : Int), v = F64.fin a m ∧ v' = F64.fin b n ∧
      fSigned b n = fSigned a m + k * (perlin7 []).freq * 2 ^ 1074)
      [F64.fin true (3 * 2 ^ 1073)] [F64.fin false (13 * 2 ^ 1073)] := by
  refine ⟨by decide, List.Forall₂.cons ⟨true, false, 3 * 2 ^ 1073, 13 * 2 ^ 1073, 1, rfl, rfl, ?_⟩ List.Forall₂.nil⟩
  decide +kernel

theorem witness_SimplexEvaluationsComplete :
    let s := simplexWith point [] [] []
    let t := simplexWith [0x7FF0000000000000] [] [] []
    (12 : Reg).val + 4 ≤ 16 ∧ s.sbuilt = true ∧ ({ s with sOct := -1 } : State).sOct.toInt ≤ 0 ∧ 0 < s.sOct.toInt ∧
    (∀ k < s.sOct.toInt.toNat, simplexEvaluable Config.simplex.f4
      (octaveCoords (placeCoords (s.group 0 4) (axisValues s.sOff) (axisValues s.sScl)) k)) ∧
    (∃ k < t.sOct.toInt.toNat, ¬simplexEvaluable Config.simplex.f2
      (octaveCoords (placeCoords (t.group 0 2) (axisValues t.sOff) (axisValues t.sScl)) k)) := by
  refine ⟨by decide, rfl, by decide, by decide, ?_, 0, by decide, ?_⟩
  · intro k hk
    have hk : k = 0 := by have : (simplexWith point [] [] []).sOct.toInt.toNat = 1 := rfl; omega
    subst hk
    unfold simplexEvaluable
    decide +kernel
  · unfold simplexEvaluable
    decide +kernel

/-- The cells of a point in two, three and four dimensions, and of a point whose coordinates tie. -/
theorem witness_SimplexEvaluationsComplete_cells :
    let at' := fun (f : Word64) (x : List F64) => x.map fun v => ifloor (fAdd v (fMul (sumLeft x) (fOfBits f)))
    let p := point.map fOfBits
    at' Config.simplex.f2 (p.take 2) = [some 1, some (-1)] ∧ at' Config.simplex.f3 (p.take 3) = [some 3, some 1, some 7] ∧
    at' Config.simplex.f4 p = [some 3, some 1, some 7, some 2] ∧
    at' Config.simplex.f2 [fOne, fOne] = [some 1, some 1] ∧
    at' Config.simplex.f4 [fOne, fOne, fOne, fOne] = [some 2, some 2, some 2, some 2] := by decide +kernel

/-- Numbers in a strict order, and a mask that no ordering reaches: `y > w` alone. -/
theorem witness_RankCountsTheComparisonsWon : F64.fin true 3 ≠ .nan ∧ F64.inf false ≠ .nan ∧ 2 < 64 ∧
    ∀ x y z w : F64, x ≠ .nan → y ≠ .nan → z ≠ .nan → w ≠ .nan → rankMask x y z w ≠ 2 := by
  refine ⟨by decide, by decide, by decide, ?_⟩
  intro x y z w hx hy hz hw h
  have key : ∀ v : F64, v ≠ .nan → ∃ n, fKey v = some n := by
    intro v hv
    cases v with
    | nan => exact absurd rfl hv
    | inf neg => exact ⟨_, rfl⟩
    | fin neg mag => exact ⟨_, rfl⟩
  obtain ⟨a, ha⟩ := key y hy
  obtain ⟨b, hb⟩ := key z hz
  obtain ⟨c, hc⟩ := key w hw
  simp only [rankMask, fLt, ha, hb, hc] at h
  have bit : ∀ p : Bool, p.toNat ≤ 1 := fun p => by cases p <;> decide
  have h1 := bit (match fKey y, fKey x with | some x, some y => decide (x < y) | _, _ => false)
  by_cases h2 : b < a <;> by_cases h3 : c < a <;> by_cases h4 : c < b <;> simp [h2, h3, h4] at h <;> omega

/-- A size of 4: three scales are at least 1 and the fourth is not; a NaN is refused; an infinite point has no cell. -/
theorem witness_SmipSumsItsScales :
    let s := simplexWith [0x4010000000000000, 0x3FF0000000000000] [] [] []
    (0 : Reg).val + 4 ≤ 16 ∧ s.sbuilt = true ∧ fFinite (s.regF 0) = true ∧ fLt fZero (s.regF 0) = true ∧
    fLe fOne (mipScale (s.regF 0) 3) = false ∧ (∀ k < 3, fLe fOne (mipScale (s.regF 0) k) = true) ∧
    (∀ k < 3, (s.simplexBase3 ([s.regF 1, s.regF 2, s.regF 3].map fun v => fDiv v (mipScale (s.regF 0) k))).isSome = true) ∧
    ¬(fFinite (fOfBits 0x7FF8000000000000) = true ∧ fLt fZero (fOfBits 0x7FF8000000000000) = true) ∧
    (simplexWith [] [] [] []).simplexBase3 [.inf false, fZero, fZero] = none := by decide +kernel

/-- The premises of the invariants: at reset, and with tables that are built. -/
theorem witness_invariants : State.reset.wf ∧ (perlin7 []).wf ∧
    step { State.reset with port := [.write 0 8 0] } = .next State.reset ∧
    step { perlin7 [] with port := [.write 0 8 0] } = .next (perlin7 []) := by
  refine ⟨?_, ?_, rfl, rfl⟩ <;> unfold State.wf <;> decide

/-- V15's tables have the invariants of R30: the axes are permutations of 0..7, each held twice. -/
theorem witness_perlinTablesOk : (perlin7 []).pbuilt = true ∧ (perlin7 []).perlinTablesOk := by
  have h : (perlin7 []).freq = 8 := by decide
  refine ⟨rfl, fun _ => ?_⟩
  rw [h]
  exact ⟨by decide +kernel, by decide +kernel⟩

/-- Built simplex tables of zeros have the invariants of R34. -/
theorem witness_simplexTablesOk :
    let s : State := { State.reset with
      sbuilt := true
      sp := Vector.replicate 512 0
      sm12 := Vector.replicate 512 0
      sm32 := Vector.replicate 512 0 }
    s.sbuilt = true ∧ s.simplexTablesOk := by
  refine ⟨rfl, fun _ => ?_⟩
  have zero : ∀ (α : Type) (a : α) (k : Nat), (Vector.replicate 512 a).getD k a = a := by
    intro α a k
    by_cases h : k < 512 <;> simp [Vector.getD, h]
  simp [State.spAt, State.sm12At, State.sm32At, zero]

/-- A completed command for each of the three frames. -/
theorem witness_frames : exec (.nu64 1) drawing = .next (after (.nu64 1) drawing) ∧ (2 : Reg) ∉ destRegs (.nu64 1) ∧
    exec .save drawing = .next (drawing.storeBytes 0 (serialise drawing.gen)) ∧ storedBytes .save drawing ≤ 2540 ∧
    movesGenerator (.pn1 0 0) = false ∧ seedsGenerator (.pn1 0 0) = false ∧ configuresPerlin (.pn1 0 0) = false ∧
    configuresSimplex (.pn1 0 0) = false ∧ drawing.seeded = true ∧ (perlin7 []).pbuilt = true ∧
    ∃ t, exec (.pn1 0 0) (perlin7 []) = .next t :=
  ⟨rfl, by decide, rfl, by decide, rfl, rfl, rfl, rfl, rfl, rfl, pn1_answers_next _⟩

/-- Two states that differ in everything but the registers, the latch and one noise generator. -/
theorem witness_EvaluationsReadOnlyTheirOwnState (s : State) :
    let t : State := { s with gen := initState 9, seeded := true, sSeed := 8, sOct := 3, buf := [(0, 1)] }
    let u : State := { s with gen := initState 9, pSeed := 8, pOct := 3 }
    (s.ecode = t.ecode ∧ s.r = t.r ∧ s.samePerlin t ∧
      ∃ s' t', exec (.pn1 0 0) s = .next s' ∧ exec (.pn1 0 0) t = .next t') ∧
    (s.ecode = u.ecode ∧ s.r = u.r ∧ s.sameSimplex u ∧
      ∃ s' t', exec (.sn2 0 0) s = .next s' ∧ exec (.sn2 0 0) u = .next t') := by
  intro t u
  obtain ⟨a, ha⟩ := pn1_answers_next s
  obtain ⟨b, hb⟩ := pn1_answers_next t
  obtain ⟨c, hc⟩ := sn2_answers_next s
  obtain ⟨d, hd⟩ := sn2_answers_next u
  exact ⟨⟨rfl, rfl, ⟨rfl, rfl, rfl, rfl, rfl, rfl, rfl, rfl⟩, a, b, ha, hb⟩,
    rfl, rfl, ⟨rfl, rfl, rfl, rfl, rfl, rfl, rfl, rfl⟩, c, d, hc, hd⟩

end Sys2Proof.Tests
end

section
/-! SUPPORT. `fRound` is rounding to nearest even (00_scope.md R12): its magnitude is the nearest multiple of its last
place, and every other representable magnitude is such a multiple or lies too low to be nearer. -/

namespace Sys2Proof.Machine

/-! Representable magnitudes. -/

theorem fOverflow_eq : fOverflow = 2 ^ 53 * 2 ^ 2045 := by
  rw [fOverflow, ← pow_add]

/-- A representable magnitude is a multiple of the last place of the result, or lies below every number of that exponent. -/
theorem representable.multiple_or_lt {m : Nat} (h : representable m) (e : Nat) :
    (∃ k, m = k * 2 ^ e) ∨ (e ≠ 0 ∧ m < 2 ^ 52 * 2 ^ e) := by
  obtain ⟨a, f, ha, rfl, -⟩ := h
  rcases le_or_gt e f with hle | hlt
  · exact .inl ⟨a * 2 ^ (f - e), by rw [mul_assoc, ← pow_add, Nat.sub_add_cancel hle]⟩
  · refine .inr ⟨by omega, ?_⟩
    calc a * 2 ^ f < 2 ^ 53 * 2 ^ f := Nat.mul_lt_mul_of_pos_right ha (Nat.two_pow_pos f)
      _ = 2 ^ 52 * 2 ^ (f + 1) := by ring
      _ ≤ 2 ^ 52 * 2 ^ e := Nat.mul_le_mul_left _ (Nat.pow_le_pow_right (by omega) hlt)

theorem representable_mul_two_pow {m e : Nat} (hm : m < 2 ^ 53) (he : e ≤ 2045) : representable (m * 2 ^ e) := by
  refine ⟨m, e, hm, rfl, ?_⟩
  have hpow : 2 ^ e ≤ 2 ^ 2045 := pow_le_pow_right₀ one_le_two he
  rw [fOverflow_eq]
  exact (Nat.mul_lt_mul_of_pos_right hm (Nat.two_pow_pos e)).trans_le (Nat.mul_le_mul_left _ hpow)

/-- `2 ^ 53` counts as well, being 1 at a larger exponent. -/
theorem representable_of_le {m e : Nat} (hm : m ≤ 2 ^ 53) (he : e ≤ 2044) : representable (m * 2 ^ e) := by
  rcases hm.lt_or_eq with hlt | rfl
  · exact representable_mul_two_pow hlt (by omega)
  · rw [show 2 ^ 53 * 2 ^ e = 2 ^ 52 * 2 ^ (e + 1) by ring]
    exact representable_mul_two_pow (by decide) (by omega)

/-- A representable magnitude is subnormal, or has 53 significant bits and an exponent field of 2046 at most. -/
theorem representable_iff (mag : Nat) : representable mag ↔
    mag < 2 ^ 52 ∨ ∃ m e, 2 ^ 52 ≤ m ∧ m < 2 ^ 53 ∧ e ≤ 2045 ∧ mag = m * 2 ^ e := by
  constructor
  · intro hrep
    rcases lt_or_ge mag (2 ^ 52) with hlt | hge
    · exact .inl hlt
    have hlog : 52 ≤ mag.log2 := (Nat.le_log2 (by omega)).2 hge
    obtain ⟨e, he⟩ := Nat.exists_eq_add_of_le hlog
    obtain ⟨hlo, hhi⟩ := (Nat.log2_eq_iff (by omega)).1 he
    rw [show 52 + e + 1 = 53 + e by omega, pow_add] at hhi
    rw [pow_add] at hlo
    have hpos := Nat.two_pow_pos e
    have hover : mag < 2 ^ 53 * 2 ^ 2045 := by
      obtain ⟨-, -, -, -, h⟩ := hrep
      rwa [← fOverflow_eq]
    rcases hrep.multiple_or_lt e with ⟨m, rfl⟩ | ⟨-, hlt⟩
    · have hm := (Nat.mul_le_mul_right_iff hpos).1 hlo
      have hexp : 2 ^ (52 + e) < 2 ^ (53 + 2045) := by
        rw [pow_add, pow_add]
        exact hlo.trans_lt hover
      have := (Nat.pow_lt_pow_iff_right (by decide)).1 hexp
      exact .inr ⟨m, e, hm, (Nat.mul_lt_mul_right hpos).1 hhi, by omega, rfl⟩
    · omega
  · rintro (hlt | ⟨m, e, -, hhi, he, rfl⟩)
    · rw [← mul_one mag, ← pow_zero 2]
      exact representable_mul_two_pow (by omega) (by decide)
    · exact representable_mul_two_pow hhi he

/-! Rounding a quotient. -/

/-- The integer nearest to `num / q`, a tie going to the even one: the rounding inside `fRound`. -/
def roundHalfEven (num q : Nat) : Nat :=
  if q < 2 * (num % q) ∨ (2 * (num % q) = q ∧ num / q % 2 = 1) then num / q + 1 else num / q

/-- Rounding moves a quotient by half a unit at most, and by exactly half only to an even integer. -/
theorem roundHalfEven_error (num : Nat) {q : Nat} (hq : 0 < q) :
    2 * ((num : Int) - roundHalfEven num q * q).natAbs ≤ q ∧
    (2 * ((num : Int) - roundHalfEven num q * q).natAbs = q → roundHalfEven num q % 2 = 0) := by
  have hdiv : (num : Int) = (num / q : Nat) * q + (num % q : Nat) := by exact_mod_cast (Nat.div_add_mod' num q).symm
  have hrem := Nat.mod_lt num hq
  unfold roundHalfEven
  split
  · have : (num : Int) - ((num / q + 1 : Nat) : Int) * q = (num % q : Nat) - q := by push_cast at hdiv ⊢; linarith
    rw [this]
    omega
  · have : (num : Int) - ((num / q : Nat) : Int) * q = (num % q : Nat) := by linarith
    rw [this]
    omega

/-- No multiple of `q` is nearer to `num` than the rounded one; another one is as near only if the rounded one is even. -/
theorem roundHalfEven_nearest (num : Nat) {q : Nat} (hq : 0 < q) (k : Nat) :
    ((num : Int) - roundHalfEven num q * q).natAbs ≤ ((num : Int) - k * q).natAbs ∧
    (k ≠ roundHalfEven num q →
      ((num : Int) - roundHalfEven num q * q).natAbs = ((num : Int) - k * q).natAbs → roundHalfEven num q % 2 = 0) := by
  obtain ⟨herr, heven⟩ := roundHalfEven_error num hq
  by_cases hk : k = roundHalfEven num q
  · subst hk
    exact ⟨le_refl _, fun h => absurd rfl h⟩
  have hgap : q ≤ ((k : Int) * q - roundHalfEven num q * q).natAbs := by
    rw [← sub_mul, Int.natAbs_mul, Int.natAbs_natCast]
    exact Nat.le_mul_of_pos_left q (by omega)
  exact ⟨by omega, fun _ htie => heven (by omega)⟩

/-- From the midpoint above an odd integer on, rounding goes past that integer. -/
theorem lt_roundHalfEven_iff (num : Nat) {q k : Nat} (hq : 0 < q) (hk : k % 2 = 1) :
    k < roundHalfEven num q ↔ (2 * k + 1) * q ≤ 2 * num := by
  have hdiv := Nat.div_add_mod' num q
  have hrem := Nat.mod_lt num hq
  rw [add_mul, mul_assoc, one_mul]
  unfold roundHalfEven
  rcases lt_trichotomy k (num / q) with h | h | h
  · have hgap := Nat.mul_le_mul_right q (Nat.succ_le_of_lt h)
    rw [Nat.succ_mul] at hgap
    split <;> omega
  · subst h
    split <;> omega
  · have hgap := Nat.mul_le_mul_right q (Nat.succ_le_of_lt h)
    rw [Nat.succ_mul] at hgap
    split <;> omega

/-- Rounding does not go up past an integer. -/
theorem roundHalfEven_le {num q k : Nat} (hq : 0 < q) (h : num ≤ k * q) : roundHalfEven num q ≤ k := by
  obtain ⟨hnear, -⟩ := roundHalfEven_nearest num hq k
  by_contra hlt
  have hgap := Nat.mul_le_mul_right q (Nat.succ_le_of_lt (not_le.1 hlt))
  rw [Nat.succ_mul] at hgap
  zify at h hgap hq
  omega

/-- Rounding does not go down past an integer. -/
theorem le_roundHalfEven {num q k : Nat} (hq : 0 < q) (h : k * q ≤ num) : k ≤ roundHalfEven num q := by
  obtain ⟨hnear, -⟩ := roundHalfEven_nearest num hq k
  by_contra hlt
  have hgap := Nat.mul_le_mul_right q (Nat.succ_le_of_lt (not_le.1 hlt))
  rw [Nat.succ_mul] at hgap
  zify at h hgap hq
  omega

/-! The pieces of `fRound`. -/

/-- The power of two that `fRound` counts in: 0 below `2^53`, else what leaves 53 bits of the integer part. -/
def roundExp (num den : Nat) : Nat := (num / den).log2 - 52

/-- One unit in the last place of the result, as a multiple of `1 / den`. -/
def quantum (num den : Nat) : Nat := den * 2 ^ roundExp num den

/-- The magnitude that `fRound` reaches before it looks for overflow. -/
def roundedMag (num den : Nat) : Nat :=
  roundHalfEven num (quantum num den) * 2 ^ roundExp num den

theorem fRound_eq (neg : Bool) (num den : Nat) :
    fRound neg num den =
      if fOverflow ≤ roundedMag num den then .inf neg else .fin neg (roundedMag num den) := rfl

theorem quantum_pos (num : Nat) {den : Nat} (hden : 0 < den) : 0 < quantum num den :=
  Nat.mul_pos hden (Nat.two_pow_pos _)

/-- The rounded quotient has 53 bits at most, counted exactly. -/
theorem lt_quantum (num : Nat) {den : Nat} (hden : 0 < den) : num < 2 ^ 53 * quantum num den := by
  have hlog : num / den < 2 ^ (53 + roundExp num den) :=
    Nat.lt_log2_self.trans_le (Nat.pow_le_pow_right (by omega) (by unfold roundExp; omega))
  have := (Nat.div_lt_iff_lt_mul hden).1 hlog
  rwa [pow_add, mul_assoc, mul_comm _ den] at this

/-- Above the smallest exponent the rounded quotient has all 53 bits. -/
theorem quantum_le {num den : Nat} (hden : 0 < den) (hexp : roundExp num den ≠ 0) : 2 ^ 52 * quantum num den ≤ num := by
  have hne : num / den ≠ 0 := by
    intro h
    simp [roundExp, h] at hexp
  have hlog : 2 ^ (52 + roundExp num den) ≤ num / den :=
    (Nat.pow_le_pow_right (by omega) (by unfold roundExp at *; omega)).trans (Nat.log2_self_le hne)
  have := (Nat.le_div_iff_mul_le hden).1 hlog
  rwa [pow_add, mul_assoc, mul_comm _ den] at this

theorem roundHalfEven_quantum_le (num : Nat) {den : Nat} (hden : 0 < den) :
    roundHalfEven num (quantum num den) ≤ 2 ^ 53 :=
  roundHalfEven_le (quantum_pos num hden) (lt_quantum num hden).le

theorem le_roundHalfEven_quantum {num den : Nat} (hden : 0 < den) (hexp : roundExp num den ≠ 0) :
    2 ^ 52 ≤ roundHalfEven num (quantum num den) :=
  le_roundHalfEven (quantum_pos num hden) (quantum_le hden hexp)

/-- The rounded magnitude reaches the power of two `2 ^ (53 + e)` from the midpoint below it on. -/
theorem two_pow_le_roundedMag_iff (num : Nat) {den : Nat} (hden : 0 < den) (e : Nat) :
    2 ^ 53 * 2 ^ e ≤ roundedMag num den ↔ (2 ^ 54 - 1) * (den * 2 ^ e) ≤ 2 * num := by
  have hpos := Nat.two_pow_pos e
  have hq := quantum_pos num hden
  unfold roundedMag
  rcases lt_trichotomy (roundExp num den) e with h | h | h
  · have hpow : 2 * 2 ^ roundExp num den ≤ 2 ^ e := by
      rw [← pow_succ']
      exact Nat.pow_le_pow_right (by omega) h
    have hmag := Nat.mul_le_mul (roundHalfEven_quantum_le num hden) hpow
    have hnum := lt_quantum num hden
    have hquantum : 2 * quantum num den ≤ den * 2 ^ e := by
      rw [quantum, mul_left_comm]
      exact Nat.mul_le_mul_left _ hpow
    rw [mul_left_comm] at hmag
    omega
  · have hmid := lt_roundHalfEven_iff num hq (k := 2 ^ 53 - 1) (by decide)
    subst h
    rw [Nat.mul_le_mul_right_iff hpos]
    exact hmid
  · have hpow : 2 * 2 ^ e ≤ 2 ^ roundExp num den := by
      rw [← pow_succ']
      exact Nat.pow_le_pow_right (by omega) h
    have hexp : roundExp num den ≠ 0 := by omega
    have hmag := Nat.mul_le_mul (le_roundHalfEven_quantum hden hexp) hpow
    have hnum := quantum_le hden hexp
    have hquantum : 2 * (den * 2 ^ e) ≤ quantum num den := by
      rw [quantum, mul_left_comm]
      exact Nat.mul_le_mul_left _ hpow
    omega

/-- `fRound` overflows from the midpoint above the largest finite magnitude on. -/
theorem fOverflow_le_roundedMag_iff (num : Nat) {den : Nat} (hden : 0 < den) :
    fOverflow ≤ roundedMag num den ↔ (2 ^ 54 - 1) * 2 ^ 2044 * den ≤ num := by
  have hmid : (2 ^ 54 - 1) * (den * 2 ^ 2045) = 2 * ((2 ^ 54 - 1) * 2 ^ 2044 * den) := by
    rw [pow_succ' 2 2044]
    generalize 2 ^ 2044 = p
    ring
  rw [fOverflow_eq, two_pow_le_roundedMag_iff num hden, hmid, Nat.mul_le_mul_left_iff two_pos]

theorem roundedMag_mul_den (num den : Nat) :
    roundedMag num den * den = roundHalfEven num (quantum num den) * quantum num den := by
  unfold roundedMag quantum
  ring

/-- No representable magnitude is nearer to `num / den`, and one as near means that the last bit of the rounded one is 0. -/
theorem roundedMag_nearest (num : Nat) {den m : Nat} (hden : 0 < den) (hm : representable m) :
    ((num : Int) - roundedMag num den * den).natAbs ≤ ((num : Int) - m * den).natAbs ∧
    (m ≠ roundedMag num den → ((num : Int) - roundedMag num den * den).natAbs = ((num : Int) - m * den).natAbs →
      roundHalfEven num (quantum num den) % 2 = 0) := by
  have hmag : (roundedMag num den : Int) * den = roundHalfEven num (quantum num den) * quantum num den := by
    exact_mod_cast roundedMag_mul_den num den
  have hq := quantum_pos num hden
  rw [hmag]
  rcases hm.multiple_or_lt (roundExp num den) with ⟨k, rfl⟩ | ⟨hexp, hlt⟩
  · obtain ⟨hnear, heven⟩ := roundHalfEven_nearest num hq k
    have hk : ((k * 2 ^ roundExp num den : Nat) : Int) * den = k * quantum num den := by
      unfold quantum
      push_cast
      ring
    rw [hk]
    exact ⟨hnear, fun hne => heven fun h => hne (by rw [h]; rfl)⟩
  · obtain ⟨hnear, -⟩ := roundHalfEven_nearest num hq (2 ^ 52)
    have hfar : m * den < 2 ^ 52 * quantum num den := by
      calc m * den < 2 ^ 52 * 2 ^ roundExp num den * den := Nat.mul_lt_mul_of_pos_right hlt hden
        _ = 2 ^ 52 * quantum num den := by unfold quantum; ring
    have hle := quantum_le hden hexp
    zify at hfar hle
    push_cast at hnear
    omega

/-! The exponent and fraction bits of a magnitude. -/

theorem fMagBits_of_lt {m : Nat} (h : m < 2 ^ 52) : fMagBits m = m := if_pos h

/-- A magnitude of 53 significant bits: the exponent field is one more than the power of two, the fraction drops the first bit. -/
theorem fMagBits_mul_two_pow {m : Nat} (e : Nat) (hlo : 2 ^ 52 ≤ m) (hhi : m < 2 ^ 53) :
    fMagBits (m * 2 ^ e) = e * 2 ^ 52 + m := by
  have hpos := Nat.two_pow_pos e
  have hle : 2 ^ 52 ≤ m * 2 ^ e := hlo.trans (Nat.le_mul_of_pos_right m hpos)
  have hlog : (m * 2 ^ e).log2 = 52 + e := by
    rw [Nat.log2_eq_iff (by omega), show 52 + e + 1 = 53 + e by omega, pow_add, pow_add]
    exact ⟨Nat.mul_le_mul_right _ hlo, Nat.mul_lt_mul_of_pos_right hhi hpos⟩
  rw [fMagBits, if_neg (by omega), hlog, Nat.add_sub_cancel_left, Nat.mul_div_cancel _ hpos]

/-- The last fraction bit is the last bit of the integer that the rounding found. -/
theorem fMagBits_mul_two_pow_even {m e : Nat} (heven : m % 2 = 0) (hm : m ≤ 2 ^ 53) (he : e ≠ 0 → 2 ^ 52 ≤ m) :
    fMagBits (m * 2 ^ e) % 2 = 0 := by
  rcases lt_or_ge m (2 ^ 52) with hlo | hlo
  · obtain rfl : e = 0 := by_contra fun h => absurd (he h) (by omega)
    rwa [pow_zero, mul_one, fMagBits_of_lt hlo]
  · rcases hm.lt_or_eq with hhi | rfl
    · rw [fMagBits_mul_two_pow e hlo hhi]
      omega
    · rw [show 2 ^ 53 * 2 ^ e = 2 ^ 52 * 2 ^ (e + 1) by ring, fMagBits_mul_two_pow _ le_rfl (by decide)]
      omega

/-- The last fraction bit of a rounded magnitude. -/
theorem fMagBits_roundedMag_even (num : Nat) {den : Nat} (hden : 0 < den)
    (heven : roundHalfEven num (quantum num den) % 2 = 0) : fMagBits (roundedMag num den) % 2 = 0 :=
  fMagBits_mul_two_pow_even heven (roundHalfEven_quantum_le num hden) (le_roundHalfEven_quantum hden)

theorem roundedMag_representable {num den : Nat} (hden : 0 < den) (h : roundedMag num den < fOverflow) :
    representable (roundedMag num den) := by
  rcases (roundHalfEven_quantum_le num hden).lt_or_eq with hlt | heq
  · exact ⟨_, _, hlt, rfl, h⟩
  · exact ⟨1, 53 + roundExp num den, by decide, by rw [roundedMag, heq, pow_add, one_mul], h⟩

/-! What `fRound` answers. -/

theorem fRound_overflow (neg : Bool) {num den : Nat} (hden : 0 < den)
    (h : (2 ^ 54 - 1) * 2 ^ 2044 * den ≤ num) : fRound neg num den = .inf neg := by
  rw [fRound_eq, if_pos ((fOverflow_le_roundedMag_iff num hden).2 h)]

theorem fRound_finite (neg : Bool) {num den : Nat} (hden : 0 < den)
    (h : num < (2 ^ 54 - 1) * 2 ^ 2044 * den) :
    fRound neg num den = .fin neg (roundedMag num den) ∧ representable (roundedMag num den) := by
  have hlt : ¬ fOverflow ≤ roundedMag num den := mt (fOverflow_le_roundedMag_iff num hden).1 (not_le.2 h)
  exact ⟨by rw [fRound_eq, if_neg hlt], roundedMag_representable hden (not_le.1 hlt)⟩

/-- A representable exact result is the rounded one. -/
theorem fRound_of_representable (neg : Bool) {mag : Nat} (h : representable mag) : fRound neg mag 1 = .fin neg mag := by
  obtain ⟨hnear, -⟩ := roundedMag_nearest mag one_pos h
  have hmag : roundedMag mag 1 = mag := by omega
  have hlt : mag < fOverflow := by
    obtain ⟨-, -, -, -, hlt⟩ := h
    exact hlt
  rw [fRound_eq, hmag, if_neg (not_le.2 hlt)]

end Sys2Proof.Machine
end

section
/-! SUPPORT. The three fields of a binary64 pattern (00_scope.md R12), and the pattern of each class of values by its
fields. -/

namespace Sys2Proof.Machine

/-- The sign bit of a pattern. -/
def patternNeg (b : Word64) : Bool := decide (2 ^ 63 ≤ b.toNat)

/-- The exponent bits of a pattern, as a number. -/
def patternExp (b : Word64) : Nat := b.toNat / 2 ^ 52 % 2 ^ 11

/-- The fraction bits of a pattern, as a number. -/
def patternFrac (b : Word64) : Nat := b.toNat % 2 ^ 52

/-- The pattern with a given sign, exponent field and fraction field. -/
def patternOf (neg : Bool) (ex fr : Nat) : Word64 := fSignBit neg ||| BitVec.ofNat 64 (ex * 2 ^ 52 + fr)

theorem patternExp_eq (b : Word64) : patternExp b = (b.extractLsb' 52 11).toNat := by
  rw [BitVec.extractLsb'_toNat, Nat.shiftRight_eq_div_pow, patternExp]

theorem patternFrac_eq (b : Word64) : patternFrac b = (b.extractLsb' 0 52).toNat := by
  rw [BitVec.extractLsb'_toNat, Nat.shiftRight_zero, patternFrac]

theorem fOfBits_eq (b : Word64) : fOfBits b =
    if patternExp b = 2047 then if patternFrac b = 0 then .inf (patternNeg b) else .nan
    else if patternExp b = 0 then .fin (patternNeg b) (patternFrac b)
    else .fin (patternNeg b) ((2 ^ 52 + patternFrac b) * 2 ^ (patternExp b - 1)) := by
  have hneg : b.getLsbD 63 = patternNeg b := BitVec.msb_eq_decide b
  simp only [fOfBits, hneg, patternExp_eq, patternFrac_eq]

section
variable (neg : Bool) {ex fr : Nat} (hex : ex < 2 ^ 11) (hfr : fr < 2 ^ 52)
include hex hfr

theorem patternOf_toNat : (patternOf neg ex fr).toNat = neg.toNat * 2 ^ 63 + (ex * 2 ^ 52 + fr) := by
  have hlt : ex * 2 ^ 52 + fr < 2 ^ 63 := by omega
  have hnat : (BitVec.ofNat 64 (ex * 2 ^ 52 + fr)).toNat = ex * 2 ^ 52 + fr := by
    rw [BitVec.toNat_ofNat, Nat.mod_eq_of_lt (by omega)]
  have hsign : (fSignBit neg).toNat = 2 ^ 63 * neg.toNat := by cases neg <;> rfl
  rw [patternOf, BitVec.toNat_or, hnat, hsign, ← Nat.two_pow_add_eq_or_of_lt hlt, mul_comm]

theorem patternNeg_patternOf : patternNeg (patternOf neg ex fr) = neg := by
  rw [patternNeg, patternOf_toNat neg hex hfr]
  cases neg
  · exact decide_eq_false (by rw [Bool.toNat_false]; omega)
  · exact decide_eq_true (by rw [Bool.toNat_true]; omega)

theorem patternExp_patternOf : patternExp (patternOf neg ex fr) = ex := by
  rw [patternExp, patternOf_toNat neg hex hfr]
  omega

theorem patternFrac_patternOf : patternFrac (patternOf neg ex fr) = fr := by
  rw [patternFrac, patternOf_toNat neg hex hfr]
  omega

end

theorem patternExp_lt (b : Word64) : patternExp b < 2 ^ 11 := Nat.mod_lt _ (by decide)

theorem patternFrac_lt (b : Word64) : patternFrac b < 2 ^ 52 := Nat.mod_lt _ (by decide)

/-- A pattern is its three fields. -/
theorem patternOf_fields (b : Word64) : patternOf (patternNeg b) (patternExp b) (patternFrac b) = b := by
  apply BitVec.eq_of_toNat_eq
  rw [patternOf_toNat _ (patternExp_lt b) (patternFrac_lt b), patternNeg, patternExp, patternFrac]
  have := b.isLt
  rcases le_or_gt (2 ^ 63) b.toNat with h | h
  · rw [decide_eq_true h, Bool.toNat_true]
    omega
  · rw [decide_eq_false (not_le.2 h), Bool.toNat_false]
    omega

theorem fToBits_nan : fToBits .nan =
    Config.nanBits.extractLsb' 51 1 ++ (0xFFF : BitVec 12) ++ Config.nanBits.extractLsb' 0 51 := rfl

theorem fToBits_fin (neg : Bool) (mag : Nat) :
    fToBits (.fin neg mag) = fSignBit neg ||| BitVec.ofNat 64 (fMagBits mag) := rfl

theorem fToBits_inf (neg : Bool) : fToBits (.inf neg) = patternOf neg 2047 0 := by
  cases neg <;> decide

theorem fToBits_subnormal (neg : Bool) {mag : Nat} (h : mag < 2 ^ 52) :
    fToBits (.fin neg mag) = patternOf neg 0 mag := by
  rw [fToBits_fin, fMagBits_of_lt h, patternOf, zero_mul, zero_add]

theorem fToBits_normal (neg : Bool) {fr : Nat} (e : Nat) (h : fr < 2 ^ 52) :
    fToBits (.fin neg ((2 ^ 52 + fr) * 2 ^ e)) = patternOf neg (e + 1) fr := by
  have hfields : e * 2 ^ 52 + (2 ^ 52 + fr) = (e + 1) * 2 ^ 52 + fr := by ring
  rw [fToBits_fin, fMagBits_mul_two_pow e (by omega) (by omega), hfields, patternOf]

theorem toNat_append_eq_add {v w : Nat} (x : BitVec v) (y : BitVec w) :
    (x ++ y).toNat = x.toNat * 2 ^ w + y.toNat := by
  rw [BitVec.toNat_append, ← Nat.shiftLeft_add_eq_or_of_lt y.isLt, Nat.shiftLeft_eq]

/-- The pattern of a NaN, whose sign `a` and payload `c` are free: the exponent bits and the first fraction bit are 1. -/
theorem fToBits_nan_toNat : ∃ a c : Nat, c < 2 ^ 51 ∧ (fToBits .nan).toNat = (a * 2 ^ 12 + 0xFFF) * 2 ^ 51 + c := by
  refine ⟨(Config.nanBits.extractLsb' 51 1).toNat, (Config.nanBits.extractLsb' 0 51).toNat, BitVec.isLt _, ?_⟩
  have hones : (0xFFF : BitVec 12).toNat = 0xFFF := rfl
  rw [fToBits_nan, toNat_append_eq_add, toNat_append_eq_add, hones]

theorem patternExp_nan : patternExp (fToBits .nan) = 2047 := by
  obtain ⟨a, c, hc, hnat⟩ := fToBits_nan_toNat
  rw [patternExp, hnat]
  omega

theorem patternFrac_nan : patternFrac (fToBits .nan) ≠ 0 := by
  obtain ⟨a, c, hc, hnat⟩ := fToBits_nan_toNat
  rw [patternFrac, hnat]
  omega

/-! What a pattern of each class means, and that patterns and values correspond. -/

section
variable {b : Word64}

theorem fOfBits_inf (hex : patternExp b = 2047) (hfr : patternFrac b = 0) : fOfBits b = .inf (patternNeg b) := by
  rw [fOfBits_eq, if_pos hex, if_pos hfr]

theorem fOfBits_of_nan (hex : patternExp b = 2047) (hfr : patternFrac b ≠ 0) : fOfBits b = .nan := by
  rw [fOfBits_eq, if_pos hex, if_neg hfr]

theorem fOfBits_subnormal (hex : patternExp b = 0) : fOfBits b = .fin (patternNeg b) (patternFrac b) := by
  rw [fOfBits_eq, if_neg (by omega), if_pos hex]

theorem fOfBits_normal (hmax : patternExp b ≠ 2047) (hmin : patternExp b ≠ 0) :
    fOfBits b = .fin (patternNeg b) ((2 ^ 52 + patternFrac b) * 2 ^ (patternExp b - 1)) := by
  rw [fOfBits_eq, if_neg hmax, if_neg hmin]

/-- The magnitude of a pattern that is not all ones in the exponent. -/
theorem fOfBits_finite (hex : patternExp b < 2047) : ∃ mag, representable mag ∧ fOfBits b = .fin (patternNeg b) mag ∧
    mag = if patternExp b = 0 then patternFrac b else (2 ^ 52 + patternFrac b) * 2 ^ (patternExp b - 1) := by
  have hfr := patternFrac_lt b
  by_cases hzero : patternExp b = 0
  · exact ⟨_, (representable_iff _).2 (.inl hfr), fOfBits_subnormal hzero, (if_pos hzero).symm⟩
  · exact ⟨_, representable_mul_two_pow (by omega) (by omega), fOfBits_normal (by omega) hzero, (if_neg hzero).symm⟩

end

/-- A pattern that is no NaN comes back from its value. -/
theorem fToBits_fOfBits {b : Word64} (h : fOfBits b ≠ .nan) : fToBits (fOfBits b) = b := by
  have hfr := patternFrac_lt b
  by_cases hmax : patternExp b = 2047
  · have hzero : patternFrac b = 0 := by_contra fun hne => h (fOfBits_of_nan hmax hne)
    rw [fOfBits_inf hmax hzero, fToBits_inf, ← hmax, ← hzero, patternOf_fields]
  by_cases hmin : patternExp b = 0
  · rw [fOfBits_subnormal hmin, fToBits_subnormal _ hfr, ← hmin, patternOf_fields]
  · rw [fOfBits_normal hmax hmin, fToBits_normal _ _ hfr, Nat.sub_add_cancel (by omega), patternOf_fields]

/-- A representable number comes back from its pattern. -/
theorem fOfBits_fToBits_fin (neg : Bool) {mag : Nat} (h : representable mag) :
    fOfBits (fToBits (.fin neg mag)) = .fin neg mag := by
  rcases (representable_iff mag).1 h with hlt | ⟨m, e, hlo, hhi, he, rfl⟩
  · rw [fToBits_subnormal neg hlt, fOfBits_subnormal (patternExp_patternOf neg (by decide) hlt),
      patternNeg_patternOf neg (by decide) hlt, patternFrac_patternOf neg (by decide) hlt]
  · obtain ⟨fr, rfl⟩ := Nat.exists_eq_add_of_le hlo
    have hex : e + 1 < 2 ^ 11 := by omega
    have hfr : fr < 2 ^ 52 := by omega
    have hexp := patternExp_patternOf neg hex hfr
    rw [fToBits_normal neg e hfr, fOfBits_normal (by omega) (by omega), hexp, patternNeg_patternOf neg hex hfr,
      patternFrac_patternOf neg hex hfr, Nat.add_sub_cancel]

theorem fOfBits_fToBits_inf (neg : Bool) : fOfBits (fToBits (.inf neg)) = .inf neg := by
  rw [fToBits_inf, fOfBits_inf (patternExp_patternOf neg (by decide) (by decide))
    (patternFrac_patternOf neg (by decide) (by decide)), patternNeg_patternOf neg (by decide) (by decide)]

theorem fOfBits_fToBits_nan : fOfBits (fToBits .nan) = .nan := fOfBits_of_nan patternExp_nan patternFrac_nan

end Sys2Proof.Machine
end

section
/-! SUPPORT. Binary64 operations by the class of their operands (00_scope.md R12). -/

namespace Sys2Proof.Machine

/-! Arithmetic. -/

@[simp] theorem fSigned_false (mag : Nat) : fSigned false mag = mag := rfl

@[simp] theorem fSigned_true (mag : Nat) : fSigned true mag = -mag := rfl

theorem fSigned_not (neg : Bool) (mag : Nat) : fSigned (!neg) mag = -fSigned neg mag := by
  cases neg
  · rfl
  · exact (neg_neg (mag : Int)).symm

theorem fUnit_pos : 0 < fUnit := pow_pos two_pos 1074

theorem cast_fUnit {R : Type} [CommRing R] : (fUnit : R) = 2 ^ 1074 := by
  rw [fUnit, Nat.cast_pow, Nat.cast_ofNat]

theorem fAdd_fin (a b : Bool) (m n : Nat) : fAdd (.fin a m) (.fin b n) =
    if fSigned a m + fSigned b n = 0 then .fin (a && b) 0
    else fRound (decide (fSigned a m + fSigned b n < 0)) (fSigned a m + fSigned b n).natAbs 1 := rfl

theorem fSub_fin (a b : Bool) (m n : Nat) : fSub (.fin a m) (.fin b n) =
    if fSigned a m - fSigned b n = 0 then .fin (a && !b) 0
    else fRound (decide (fSigned a m - fSigned b n < 0)) (fSigned a m - fSigned b n).natAbs 1 := by
  rw [sub_eq_add_neg, ← fSigned_not]
  rfl

theorem fMul_fin (a b : Bool) (m n : Nat) :
    fMul (.fin a m) (.fin b n) = fRound (a ^^ b) (m * n) (2 ^ 1074) := rfl

theorem fDiv_fin (a b : Bool) (m : Nat) {n : Nat} (hn : n ≠ 0) :
    fDiv (.fin a m) (.fin b n) = fRound (a ^^ b) (m * 2 ^ 1074) n := by
  rw [mul_comm]
  exact if_neg hn

theorem fDiv_fin_zero (a b : Bool) {m : Nat} (hm : m ≠ 0) : fDiv (.fin a m) (.fin b 0) = .inf (a ^^ b) := if_neg hm

theorem fSub_inf (a b : Bool) : fSub (.inf a) (.inf b) = if a = b then .nan else .inf a := by
  cases a <;> cases b <;> rfl

section
variable (v : F64)

@[simp] theorem fAdd_nan_right : fAdd v .nan = .nan := by cases v <;> rfl
@[simp] theorem fSub_nan_right : fSub v .nan = .nan := fAdd_nan_right v
@[simp] theorem fMul_nan_right : fMul v .nan = .nan := by cases v <;> rfl
@[simp] theorem fDiv_nan_right : fDiv v .nan = .nan := by cases v <;> rfl
@[simp] theorem fLt_nan_right : fLt v .nan = false := by cases v <;> rfl
@[simp] theorem fLe_nan_right : fLe v .nan = false := by cases v <;> rfl

end

/-! Comparisons are those of the keys. -/

section
variable {v w : F64} {x y : Int} (hv : fKey v = some x) (hw : fKey w = some y)
include hv hw

theorem fLt_eq_decide : fLt v w = decide (x < y) := by rw [fLt, hv, hw]

theorem fLe_eq_decide : fLe v w = decide (x ≤ y) := by rw [fLe, hv, hw]

theorem fLt_iff : fLt v w = true ↔ x < y := by rw [fLt_eq_decide hv hw, decide_eq_true_iff]

theorem fLe_iff : fLe v w = true ↔ x ≤ y := by rw [fLe_eq_decide hv hw, decide_eq_true_iff]

theorem fLt_eq_false_iff : fLt v w = false ↔ y ≤ x := by rw [fLt_eq_decide hv hw, decide_eq_false_iff_not, not_lt]

theorem fLe_eq_false_iff : fLe v w = false ↔ y < x := by rw [fLe_eq_decide hv hw, decide_eq_false_iff_not, not_le]

end

theorem fOverflow_pos : 0 < fOverflow := pow_pos two_pos 2098

theorem fKey_inf (neg : Bool) : fKey (.inf neg) = some (fSigned neg fOverflow) := rfl

theorem fKey_fin (neg : Bool) (mag : Nat) : fKey (.fin neg mag) = some (fSigned neg mag) := rfl

/-- Every representable number lies strictly between the infinities. -/
theorem representable.fSigned_bounds {mag : Nat} (h : representable mag) (neg : Bool) :
    fSigned true fOverflow < fSigned neg mag ∧ fSigned neg mag < fSigned false fOverflow := by
  obtain ⟨-, -, -, -, hlt⟩ := h
  cases neg <;> simp only [fSigned_false, fSigned_true] <;> omega

section
variable {n : Nat} (hn : 0 < n) (b c : Bool)
include hn

theorem fSigned_lt_fSigned_iff : fSigned b n < fSigned c n ↔ b = true ∧ c = false := by
  cases b <;> cases c <;> grind [fSigned_false, fSigned_true]

theorem fSigned_le_fSigned_iff : fSigned b n ≤ fSigned c n ↔ b = true ∨ c = false := by
  cases b <;> cases c <;> grind [fSigned_false, fSigned_true]

end

/-! Floors. -/

theorem floor_div_fUnit (x : Int) : ⌊(x : ℚ) / 2 ^ 1074⌋ = x / (fUnit : Int) := by
  rw [← Rat.floor_intCast_div_natCast, cast_fUnit]

theorem ifloor_fin (neg : Bool) (mag : Nat) :
    ifloor (.fin neg mag) = some ⌊(fSigned neg mag : ℚ) / 2 ^ 1074⌋ := by
  rw [floor_div_fUnit, ifloor]

/-- The integer part of a signed number, which has the sign of the number or is 0, from its magnitude. -/
theorem fSigned_natAbs_ediv (neg : Bool) (mag : Nat) {d : Nat} (hd : 0 < d) :
    fSigned neg (d * (fSigned neg mag / (d : Int)).natAbs) = fSigned neg mag / (d : Int) * d := by
  have hd : (0 : Int) < d := by exact_mod_cast hd
  have hmag := Int.natCast_nonneg mag
  cases neg
  · have habs := Int.natAbs_of_nonneg (Int.ediv_nonneg hmag hd.le)
    rw [fSigned_false, fSigned_false, Nat.cast_mul, habs, mul_comm]
  · have habs := Int.ofNat_natAbs_of_nonpos (Int.ediv_nonpos_of_nonpos_of_neg (Int.neg_nonpos_of_nonneg hmag) hd)
    rw [fSigned_true, fSigned_true, Nat.cast_mul, habs, mul_neg, neg_neg, mul_comm]

theorem ffloor_fin (neg : Bool) (mag : Nat) : ∃ k, ffloor (.fin neg mag) = .fin neg k ∧
    fSigned neg k = ⌊(fSigned neg mag : ℚ) / 2 ^ 1074⌋ * 2 ^ 1074 := by
  refine ⟨fUnit * (fSigned neg mag / (fUnit : Int)).natAbs, by rw [ffloor], ?_⟩
  rw [floor_div_fUnit, fSigned_natAbs_ediv neg mag fUnit_pos, cast_fUnit]

theorem fFinite_iff (v : F64) : fFinite v = true ↔ v ≠ .nan ∧ v ≠ .inf false ∧ v ≠ .inf true := by
  cases v with
  | nan => simp [fFinite]
  | inf neg => cases neg <;> simp [fFinite]
  | fin neg mag => simp [fFinite]

theorem ifloor_of_not_finite {v : F64} (h : fFinite v = false) : ifloor v = none := by
  cases v with
  | nan => rfl
  | inf neg => rfl
  | fin neg mag => cases h

/-! The conversion of an integer. -/

theorem fOfInt_eq (n : Int) : fOfInt n = fRound (decide (n < 0)) (n.natAbs * 2 ^ 1074) 1 := by
  rw [mul_comm]
  rfl

theorem fOfInt_exact {n : Int} (h : n.natAbs ≤ 2 ^ 53) : fOfInt n = .fin (decide (n < 0)) (n.natAbs * 2 ^ 1074) := by
  rw [fOfInt_eq]
  exact fRound_of_representable _ (representable_of_le h (by decide))

end Sys2Proof.Machine
end

section
/-! CLAIM. Binary64 is IEEE 754 binary64 as 00_scope.md R12 has it. -/

namespace Sys2Proof.Machine

/-- Settles O36: the rounded magnitude is the nearest multiple of its last place, hence the nearest representable number, and
the rest goes class by class through what each operation answers. -/
theorem roundingIsToNearestEven : Obligations.RoundingIsToNearestEven := by
  unfold Obligations.RoundingIsToNearestEven
  refine ⟨?rounding, ?operations, ?nans, ?infinities, fun n => ⟨fOfInt_eq n, fOfInt_exact⟩,
    fun v => ⟨fFinite_iff v, ifloor_of_not_finite⟩, fun b => ⟨fOfBits_finite, fOfBits_inf, fOfBits_of_nan, fToBits_fOfBits⟩,
    fun neg mag => fOfBits_fToBits_fin neg, fOfBits_fToBits_inf, fOfBits_fToBits_nan⟩
  case rounding =>
    intro neg num den hden
    refine ⟨fRound_overflow neg hden, fun hlt => ?_⟩
    obtain ⟨hround, hrep⟩ := fRound_finite neg hden hlt
    refine ⟨_, hround, hrep, fun m hm => ?_⟩
    obtain ⟨hnear, htie⟩ := roundedMag_nearest num hden hm
    exact ⟨hnear, fun hne heq => fMagBits_roundedMag_even num hden (htie hne heq)⟩
  case operations =>
    intro a b m n x y
    exact ⟨fun h => (fAdd_fin a b m n).trans (if_neg h), fun h => (fAdd_fin a b m n).trans (if_pos h),
      fun h => (fSub_fin a b m n).trans (if_neg h), fun h => (fSub_fin a b m n).trans (if_pos h),
      fMul_fin a b m n, fDiv_fin a b m, fDiv_fin_zero a b, rfl, rfl, rfl, rfl, rfl, rfl, fSub_inf a b, rfl, rfl, rfl, rfl, rfl, rfl,
      fLt_iff (fKey_fin a m) (fKey_fin b n), fLe_iff (fKey_fin a m) (fKey_fin b n), ifloor_fin a m, ffloor_fin a m⟩
  case nans =>
    intro v
    exact ⟨rfl, fAdd_nan_right v, rfl, fSub_nan_right v, rfl, fMul_nan_right v, rfl, fDiv_nan_right v, rfl, fLt_nan_right v, rfl,
      fLe_nan_right v⟩
  case infinities =>
    intro a b c m hm
    obtain ⟨hlow, hhigh⟩ := hm.fSigned_bounds a
    have hinf := fKey_inf
    have hfin := fKey_fin a m
    exact ⟨(fLt_iff (hinf _) hfin).2 hlow, (fLt_iff hfin (hinf _)).2 hhigh,
      (fLt_eq_false_iff (hinf _) hfin).2 hhigh.le, (fLt_eq_false_iff hfin (hinf _)).2 hlow.le,
      (fLe_iff (hinf _) hfin).2 hlow.le, (fLe_iff hfin (hinf _)).2 hhigh.le,
      (fLe_eq_false_iff (hinf _) hfin).2 hhigh, (fLe_eq_false_iff hfin (hinf _)).2 hlow,
      (fLt_iff (hinf b) (hinf c)).trans (fSigned_lt_fSigned_iff fOverflow_pos b c),
      (fLe_iff (hinf b) (hinf c)).trans (fSigned_le_fSigned_iff fOverflow_pos b c)⟩

end Sys2Proof.Machine
end

section
/-! SUPPORT. The cursor of the word generator (10_state.md R25): every seeding and every draw leaves it in 0..312. -/

namespace Sys2Proof.Machine

/-- After a refill a word is left in the register. -/
theorem refill_mti_lt (g : Gen) : (refill g).mti.toNat < 312 := by
  unfold refill
  split
  · exact (by decide : (0 : Nat) < 312)
  · omega

/-- A draw advances the cursor past the word it takes, without wrapping. -/
theorem nextWord_mti (g : Gen) : (nextWord g).2.mti.toNat = (refill g).mti.toNat + 1 := by
  have hlt := refill_mti_lt g
  show ((refill g).mti + 1).toNat = _
  rw [BitVec.toNat_add, show (1 : BitVec 9).toNat = 1 from rfl]
  omega

theorem nextWord_mti_le (g : Gen) : (nextWord g).2.mti.toNat ≤ 312 := by
  rw [nextWord_mti]
  exact refill_mti_lt g

theorem drawWords_succ (n : Nat) (g : Gen) :
    drawWords (n + 1) g =
      ((nextWord g).1 :: (drawWords n (nextWord g).2).1, (drawWords n (nextWord g).2).2) := rfl

theorem drawWords_mti_le (n : Nat) {g : Gen} (hg : g.mti.toNat ≤ 312) : (drawWords n g).2.mti.toNat ≤ 312 := by
  induction n generalizing g with
  | zero => exact hg
  | succ n ih => exact ih (nextWord_mti_le g)

@[simp] theorem drawWords_length (n : Nat) (g : Gen) : (drawWords n g).1.length = n := by
  induction n generalizing g with
  | zero => rfl
  | succ n ih => rw [drawWords_succ, List.length_cons, ih]

/-- The rounds of a primality test move the generator by some number of draws. -/
theorem primeRounds_draws (n k d rounds : Nat) (g : Gen) :
    ∃ m, (primeRounds n k d rounds g).2 = (drawWords m g).2 := by
  induction rounds generalizing g with
  | zero => exact ⟨0, rfl⟩
  | succ rounds ih =>
    simp only [primeRounds]
    split
    · obtain ⟨m, hm⟩ := ih (nextWord g).2
      exact ⟨m + 1, hm⟩
    · exact ⟨1, rfl⟩

theorem initState_mti_le (v : Word64) : (initState v).mti.toNat ≤ 312 := by
  rw [show (initState v).mti = 312 from rfl]
  decide

theorem arrayState_mti_le (key : List Word64) : (arrayState key).mti.toNat ≤ 312 := by
  rw [show (arrayState key).mti = 312 from rfl]
  decide

/-- The image that `RESTORE` accepts has a cursor of 0..312. -/
theorem imageGen_mti_le {s : State} (h : s.imageOk = true) : s.imageGen.mti.toNat ≤ 312 := by
  simp only [State.imageOk, Bool.and_eq_true, decide_eq_true_eq] at h
  obtain ⟨⟨-, hlow⟩, hhigh⟩ := h
  show (BitVec.ofInt 9 (s.memInt4 40)).toNat ≤ 312
  rw [BitVec.toNat_ofInt]
  omega

end Sys2Proof.Machine
end

section
/-! SUPPORT. The lengths of what the generator's commands store to `BUF` (40_wordgen.md R128, R131). -/

namespace Sys2Proof.Machine

theorem length_flatMap_bytesLE (ws : List Word64) : (ws.flatMap fun w => bytesLE 8 w.toNat).length = 8 * ws.length := by
  simp only [List.length_flatMap, bytesLE_length, List.map_const', List.sum_replicate, smul_eq_mul, mul_comm]

theorem serialise_length (g : Gen) : (serialise g).length = 2540 := by
  simp only [serialise, serialHeader, List.length_append, bytesLE_length, length_flatMap_bytesLE, Vector.length_toList]

/-- The words drawn always hold as many bytes as are wanted. -/
theorem fillBytes_length (count : Nat) (g : Gen) : (fillBytes count g).1.length = count := by
  show (List.take count _).length = count
  rw [List.length_take, length_flatMap_bytesLE, drawWords_length]
  omega

end Sys2Proof.Machine
end

section
/-! SUPPORT. Everything a command can do to the state, said once for all 54 commands (10_state.md R21 to R37, 60_exceptions.md
R303): the frames and the invariants of 10_state.md follow from these cases, not from `exec` itself. -/

namespace Sys2Proof.Machine

/-- `CommandEffect i s t`: the command `i` may take `s` to `t`. Each constructor is one way a command changes the state, with
what its commands have in common. -/
inductive CommandEffect (i : Instr) (s : State) : State → Prop
  /-- The command ends with an error (R303). -/
  | raised (e : Err) : CommandEffect i s (s.raise e i)
  /-- `NOP` and `SFREQ` (R268, R317). -/
  | unchanged : CommandEffect i s s
  /-- `CLRERR` (R316). -/
  | cleared : CommandEffect i s s.clearError
  /-- A seeding (R121, R122, R129). -/
  | seededWith (g : Gen) (hi : seedsGenerator i = true) (hg : g.mti.toNat ≤ 312) : CommandEffect i s (s.seedWith g)
  /-- `SAVE` (R128). -/
  | stored (bs : List Byte) (hlen : bs.length = storedBytes i s) (hbuf : bs.length ≤ Config.bufBytes) :
      CommandEffect i s (s.storeBytes 0 bs)
  /-- Words are drawn and stored as bytes (R131, R132). -/
  | filled (n : Nat) (bs : List Byte) (hmove : movesGenerator i = true) (hlen : bs.length = storedBytes i s)
      (hbuf : bs.length ≤ Config.bufBytes) :
      CommandEffect i s ((s.setGen (drawWords n s.gen).2).storeBytes 0 bs)
  /-- A result without a draw: an evaluation, or `ISPRIME` decided without a witness (R205, R220). -/
  | wrote (rd : Reg) (v : Word64) (hd : rd ∈ destRegs i) : CommandEffect i s (s.setReg rd v)
  /-- Words are drawn and the result goes to a register (R150, R202, R205). -/
  | drew (n : Nat) (rd : Reg) (v : Word64) (hmove : movesGenerator i = true) (hd : rd ∈ destRegs i) :
      CommandEffect i s ((s.setGen (drawWords n s.gen).2).setReg rd v)
  /-- A word is drawn and the result goes to a pair (R172). -/
  | drewPair (rd : Reg) (lo hi : Word64) (hmove : movesGenerator i = true) (hlo : rd ∈ destRegs i) (hhi : rd + 1 ∈ destRegs i) :
      CommandEffect i s (((s.setGen (nextWord s.gen).2).setReg rd lo).setReg (rd + 1) hi)
  /-- The Perlin tables are built, for a new seed, a new legal frequency, or neither (R224, R225, R230). -/
  | perlinBuilt (seed freq : Word64) (hi : configuresPerlin i = true)
      (hf : freq = s.pFreq ∨ 1 ≤ freq.toNat ∧ freq.toNat ≤ Config.pFreqMax) :
      CommandEffect i s ({ s with pSeed := seed, pFreq := freq } : State).perlinBuild
  /-- A setting of the Perlin generator that no table depends on (R226 to R228). -/
  | perlinSet (oct : BitVec 32) (off scl : Vector Word64 4) (hi : configuresPerlin i = true) :
      CommandEffect i s { s with pOct := oct, pOff := off, pScl := scl }
  /-- The simplex tables are built (R261, R272). -/
  | simplexBuilt (seed : Word64) (hi : configuresSimplex i = true) :
      CommandEffect i s ({ s with sSeed := seed } : State).simplexBuild
  /-- A setting of the simplex generator that no table depends on (R269 to R271). -/
  | simplexSet (oct : BitVec 32) (off scl : Vector Word64 4) (hi : configuresSimplex i = true) :
      CommandEffect i s { s with sOct := oct, sOff := off, sScl := scl }

variable {i : Instr} {s t : State} {rd : Reg}

theorem check_effect {ok : Bool} {e : Err} {k : State → Result} (h : check ok e i s k = .next t)
    (hk : ok = true → k s = .next t → CommandEffect i s t) : CommandEffect i s t := by
  rcases check_cases h with ⟨hok, h⟩ | ⟨-, rfl⟩
  · exact hk hok h
  · exact .raised e

theorem drawCommand_effect {ok : Bool} {value : Word64 → Word64} (hmove : movesGenerator i = true) (hd : rd ∈ destRegs i)
    (h : drawCommand i ok s (fun w t => t.setReg rd (value w)) = .next t) : CommandEffect i s t := by
  rcases drawCommand_cases h with ⟨-, rfl⟩ | ⟨-, -, rfl⟩ | ⟨-, -, rfl⟩
  · exact .raised _
  · exact .raised _
  · exact .drew 1 rd _ hmove hd

theorem drawBounded_effect {lo hi : Int} {mapper : Word64 → Int → Int → Int} (hmove : movesGenerator i = true)
    (hd : rd ∈ destRegs i) (h : drawBounded i rd lo hi mapper s = .next t) : CommandEffect i s t :=
  drawCommand_effect hmove hd h

theorem drawDouble_effect {ok : Bool} {value : Word64 → F64} (hmove : movesGenerator i = true) (hd : rd ∈ destRegs i)
    (h : drawDouble i rd ok value s = .next t) : CommandEffect i s t :=
  drawCommand_effect hmove hd h

theorem drawFixed_effect {ok : Bool} {value : Word64 → Int} (hmove : movesGenerator i = true) (hlo : rd ∈ destRegs i)
    (hhi : rd + 1 ∈ destRegs i) (h : drawFixed i rd ok value s = .next t) : CommandEffect i s t := by
  rcases drawFixed_cases h with ⟨-, rfl⟩ | ⟨-, rfl⟩ | ⟨-, -, rfl⟩ | ⟨-, -, -, rfl⟩
  · exact .raised _
  · exact .raised _
  · exact .raised _
  · exact .drewPair rd _ _ hmove hlo hhi

theorem evaluate_effect {built : Bool} {value : State → Option F64} (hd : rd ∈ destRegs i)
    (h : evaluate i rd built value s = .next t) : CommandEffect i s t := by
  rcases evaluate_cases h with ⟨-, rfl⟩ | ⟨-, rfl⟩ | ⟨-, -, rfl⟩ | ⟨-, v, -, rfl⟩
  · exact .raised _
  · exact .raised _
  · exact .raised _
  · exact .wrote rd _ hd

theorem execSeeda_effect (ra : Reg) (h : execSeeda ra s = .next t) : CommandEffect (.seeda ra) s t := by
  simp only [execSeeda] at h
  refine check_effect h fun _ h => ?_
  cases h
  exact .seededWith _ rfl (arrayState_mti_le _)

theorem execRestore_effect (h : execRestore s = .next t) : CommandEffect .restore s t := by
  refine check_effect h fun hok h => ?_
  cases h
  exact .seededWith _ rfl (imageGen_mti_le hok)

theorem execSave_effect (h : execSave s = .next t) : CommandEffect .save s t := by
  refine check_effect h fun _ h => ?_
  cases h
  exact .stored _ (serialise_length _) (by rw [serialise_length]; decide)

theorem execNbytes_effect (ra : Reg) (h : execNbytes ra s = .next t) : CommandEffect (.nbytes ra) s t := by
  simp only [execNbytes] at h
  refine check_effect h fun _ h => check_effect h fun hok h => ?_
  cases h
  have hlen := fillBytes_length (s.reg ra).toNat s.gen
  exact .filled _ _ rfl hlen (hlen.trans_le (of_decide_eq_true hok))

theorem execNbytesz_effect (ra : Reg) (h : execNbytesz ra s = .next t) : CommandEffect (.nbytesz ra) s t := by
  simp only [execNbytesz] at h
  refine check_effect h fun _ h => check_effect h fun hok h => ?_
  cases h
  have hlen : ((fillBytes (s.reg ra).toNat s.gen).1 ++ [0]).length = (s.reg ra).toNat + 1 := by
    rw [List.length_append, fillBytes_length, List.length_singleton]
  exact .filled _ _ rfl hlen (hlen.trans_le (of_decide_eq_true hok))

theorem execIsprime_effect (rd ra : Reg) (rounds : BitVec 12) (h : execIsprime rd ra rounds s = .next t) :
    CommandEffect (.isprime rd ra rounds) s t := by
  have hd : rd ∈ destRegs (.isprime rd ra rounds) := List.mem_singleton_self rd
  simp only [execIsprime] at h
  split at h
  · cases h
    exact .wrote rd _ hd
  · refine check_effect h fun _ h => ?_
    obtain ⟨n, hn⟩ := primeRounds_draws (s.regS ra).toNat (splitTwos 64 ((s.regS ra).toNat - 1)).1
      (splitTwos 64 ((s.regS ra).toNat - 1)).2 rounds.toNat s.gen
    cases h
    rw [hn]
    exact .drew n rd _ rfl hd

/-- A signed frequency in 1..4096 is the same number unsigned. -/
theorem toNat_of_toInt_bounds {v : Word64} (hlow : 1 ≤ v.toInt) (hhigh : v.toInt ≤ Config.pFreqMax) :
    1 ≤ v.toNat ∧ v.toNat ≤ Config.pFreqMax := by
  have hv := BitVec.toInt_eq_toNat_bmod v
  have hlt := v.isLt
  simp only [Config.pFreqMax] at *
  rw [Int.bmod] at hv
  split at hv <;> omega

theorem execPfreq_effect (ra : Reg) (h : execPfreq ra s = .next t) : CommandEffect (.pfreq ra) s t :=
  check_effect h fun hok h => by
    cases h
    simp only [Bool.and_eq_true, decide_eq_true_eq] at hok
    obtain ⟨hlow, hhigh⟩ := hok
    exact .perlinBuilt s.pSeed (s.reg ra) rfl (.inr (toNat_of_toInt_bounds hlow hhigh))

/-- Every command does to the state one of the things that `CommandEffect` lists. -/
theorem exec_effect (h : exec i s = .next t) : CommandEffect i s t := by
  cases i with
  | nop => cases h; exact .unchanged
  | clrerr => cases h; exact .cleared
  | seed ra => cases h; exact .seededWith _ rfl (initState_mti_le _)
  | seeda ra => exact execSeeda_effect ra h
  | save => exact execSave_effect h
  | restore => exact execRestore_effect h
  | nbytes ra => exact execNbytes_effect ra h
  | nbytesz ra => exact execNbytesz_effect ra h
  | nu64 rd | nu32 rd | ni64 rd | ni32 rd | witness rd =>
    simp only [exec, execNu64, execNu32, execNi64, execNi32, execWitness] at h
    exact drawCommand_effect rfl (List.mem_singleton_self rd) h
  | nu64r rd _ _ | nu32r rd _ _ | ni64r rd _ _ | ni32r rd _ _ | nu64m rd _ | nu32m rd _ | ni64m rd _ | ni32m rd _ =>
    simp only [exec, execNu64r, execNu32r, execNi64r, execNi32r, execNu64m, execNu32m, execNi64m, execNi32m] at h
    exact drawBounded_effect rfl (List.mem_singleton_self rd) h
  | nd rd | ndm rd _ | ndr rd _ _ | ntd rd | ntdm rd _ | ntdr rd _ _ =>
    simp only [exec, execNd, execNdm, execNdr, execNtd, execNtdm, execNtdr] at h
    exact drawDouble_effect rfl (List.mem_singleton_self rd) h
  | nh rd | nhm rd _ | nhr rd _ _ | nth rd | nthm rd _ | nthr rd _ _ =>
    simp only [exec, execNh, execNhm, execNhr, execNth, execNthm, execNthr] at h
    exact drawFixed_effect rfl (List.mem_cons_self ..) (List.mem_pair.2 (.inr rfl)) h
  | isprime rd ra rounds => exact execIsprime_effect rd ra rounds h
  | pseed ra => cases h; exact .perlinBuilt _ _ rfl (.inl rfl)
  | pfreq ra => exact execPfreq_effect ra h
  | poct ra | poff ra axis | pscl ra axis => cases h; exact .perlinSet _ _ _ rfl
  | pbuild => cases h; exact .perlinBuilt _ _ rfl (.inl rfl)
  | pn1 rd _ | pn2 rd _ | pn3 rd _ | pn4 rd _ | sn2 rd _ | sn3 rd _ | sn4 rd _ | smip rd _ =>
    simp only [exec, execPn1, execPn2, execPn3, execPn4, execSn2, execSn3, execSn4, execSmip] at h
    exact evaluate_effect (List.mem_singleton_self rd) h
  | sseed ra => cases h; exact .simplexBuilt _ rfl
  | sfreq ra => cases h; exact .unchanged
  | soct ra | soff ra axis | sscl ra axis => cases h; exact .simplexSet _ _ _ rfl
  | sbuild => cases h; exact .simplexBuilt _ rfl

end Sys2Proof.Machine
end

section
/-! SUPPORT. Everything an access at the host port can do to the state (20_memory.md R62 to R68, 60_exceptions.md R304 to R306,
70_reset_and_hazards.md R340), and with it everything a step can do. -/

namespace Sys2Proof.Machine

/-- `AccessEffect s t`: a host access may take `s` to `t`. -/
inductive AccessEffect (s : State) : State → Prop
  /-- A read returns a value (R62, R69). -/
  | returned (v : Word64) : AccessEffect s { s with rdata := v }
  /-- A refused read (R68). -/
  | refusedRead (info : Word64) : AccessEffect s (({ s with rdata := 0 } : State).latch .bus info)
  /-- A refused write, or a value written to `CMD` that is no command (R68, R305). -/
  | refusedWrite (e : Err) (info : Word64) : AccessEffect s (s.latch e info)
  /-- A command that is dropped because an error is latched (R304). -/
  | dropped : AccessEffect s s
  /-- A command (R63). -/
  | ran (i : Instr) {t : State} (h : CommandEffect i s t) : AccessEffect s t
  /-- A write of an operand register (R61). -/
  | wroteReg (k : Reg) (v : Word64) : AccessEffect s (s.setReg k v)
  /-- A write of the `BUF` window (R64, R67). -/
  | wroteBuf (addr : Nat) (bs : List Byte) (h : addr + bs.length ≤ Config.bufBytes) : AccessEffect s (s.storeBytes addr bs)
  /-- The platform's reset (R340). -/
  | reset : AccessEffect s { State.resetAt (s.epoch + 1) with port := s.port, rdata := s.rdata }

variable {s t : State}

theorem issue_effect {v : Word64} (h : issue v s = .next t) : AccessEffect s t := by
  unfold issue at h
  split at h
  · split at h
    · exact .ran _ (exec_effect h)
    · cases h; exact .dropped
  · split at h
    · exact .ran _ (exec_effect h)
    · cases h; exact .refusedWrite _ _

/-- An aligned access to the window ends within `BUF`. -/
theorem windowAccess_end_le {o : BitVec 13} {size : Nat} (h : windowAccess o.toNat size = true) :
    o.toNat - 0x1000 + size ≤ Config.bufBytes := by
  simp only [windowAccess, Bool.and_eq_true, Bool.or_eq_true, beq_iff_eq, decide_eq_true_eq] at h
  obtain ⟨⟨hlow, hsize⟩, halign⟩ := h
  have hlt := o.isLt
  show _ ≤ 4096
  rcases hsize with ((rfl | rfl) | rfl) | rfl <;> omega

theorem hostWrite_effect {o : BitVec 13} {size : Nat} {v : Word64}
    (h : s.hostWrite o.toNat size v = some (.next t)) : AccessEffect s t := by
  unfold State.hostWrite at h
  split at h
  · split at h
    · exact issue_effect (Option.some.inj h)
    · split at h
      · cases h; exact .wroteReg _ _
      · cases h
  · split at h
    · rename_i hwindow
      cases h
      refine .wroteBuf _ _ ?_
      rw [bytesLE_length]
      exact windowAccess_end_le hwindow
    · cases h

theorem hostAccess_effect {a : HostAccess} (h : hostAccess a s = .next t) : AccessEffect s t := by
  cases a with
  | read offset size =>
    simp only [hostAccess] at h
    split at h
    · cases h; exact .returned _
    · cases h; exact .refusedRead _
  | write offset size value =>
    simp only [hostAccess] at h
    split at h
    · rename_i hwrite
      exact hostWrite_effect (hwrite.trans (congrArg some h))
    · cases h; exact .refusedWrite _ _
  | reset => cases h; exact .reset

/-- A step waits, or takes an access and has its effect. -/
theorem step_effect (h : step s = .next t) : t = s ∨ AccessEffect s.takeAccess t := by
  rcases step_cases s with ⟨-, hstep⟩ | ⟨a, -, -, hstep⟩
  · exact .inl (Host.Outcome.next.inj (h.symm.trans hstep))
  · exact .inr (hostAccess_effect (hstep.symm.trans h))

end Sys2Proof.Machine
end

section
/-! CLAIM. The frames of 10_state.md: what a command leaves as it was. -/

namespace Sys2Proof.Machine

theorem State.reg_setReg_of_ne (s : State) {k rd : Reg} (v : Word64) (h : k ≠ rd) : (s.setReg rd v).reg k = s.reg k :=
  Vector.getElem_set_ne rd.isLt k.isLt fun he => h (Fin.ext he.symm)

variable {i : Instr} {s t : State}

/-! The operand registers and what the model keeps of the host. -/

theorem CommandEffect.reg_eq (h : CommandEffect i s t) {k : Reg} (hk : k ∉ destRegs i) : t.reg k = s.reg k := by
  have ne {rd : Reg} (hd : rd ∈ destRegs i) : k ≠ rd := fun he => hk (he ▸ hd)
  cases h with
  | raised e => simp only [State.reg, State.raise_r]
  | wrote rd v hd => exact s.reg_setReg_of_ne v (ne hd)
  | drew n rd v _ hd => exact State.reg_setReg_of_ne _ v (ne hd)
  | drewPair rd lo hi _ hlo hhi =>
    exact (State.reg_setReg_of_ne _ hi (ne hhi)).trans (State.reg_setReg_of_ne _ lo (ne hlo))
  | _ => rfl

theorem CommandEffect.host_eq (h : CommandEffect i s t) : t.port = s.port ∧ t.rdata = s.rdata ∧ t.epoch = s.epoch := by
  cases h with
  | raised e => exact ⟨s.raise_port e i, s.raise_rdata e i, s.raise_epoch e i⟩
  | _ => exact ⟨rfl, rfl, rfl⟩

/-- Settles O57: by the effects of a command, of which only those with a destination write a register. -/
theorem onlyDestinationRegistersChange : Obligations.OnlyDestinationRegistersChange := by
  unfold Obligations.OnlyDestinationRegistersChange
  intro i s t h
  exact ⟨fun k hk => (exec_effect h).reg_eq hk, (exec_effect h).host_eq⟩

/-! The main generator and the two noise generators. -/

theorem movesGenerator_of_seedsGenerator (h : seedsGenerator i = true) : movesGenerator i = true := by
  cases i with
  | seed ra | seeda ra | restore => rfl
  | _ => cases h

theorem CommandEffect.gen_eq (h : CommandEffect i s t) (hi : movesGenerator i = false) : t.gen = s.gen := by
  have absurd_move {p : Prop} (hmove : movesGenerator i = true) : p := absurd hmove (by rw [hi]; decide)
  cases h with
  | raised e => exact s.raise_gen e i
  | seededWith g hseed => exact absurd_move (movesGenerator_of_seedsGenerator hseed)
  | filled n bs hmove => exact absurd_move hmove
  | drew n rd v hmove => exact absurd_move hmove
  | drewPair rd lo hi hmove => exact absurd_move hmove
  | _ => rfl

theorem CommandEffect.seeded_eq (h : CommandEffect i s t) (hi : seedsGenerator i = false) : t.seeded = s.seeded := by
  cases h with
  | raised e => exact s.raise_seeded e i
  | seededWith g hseed => exact absurd hseed (by rw [hi]; decide)
  | _ => rfl

theorem samePerlin_latch (s : State) (e : Err) (info : Word64) : s.samePerlin (s.latch e info) :=
  ⟨s.latch_pSeed e info, s.latch_pFreq e info, s.latch_pOct e info, s.latch_pOff e info, s.latch_pScl e info,
    s.latch_val e info, s.latch_perm e info, s.latch_pbuilt e info⟩

theorem sameSimplex_latch (s : State) (e : Err) (info : Word64) : s.sameSimplex (s.latch e info) :=
  ⟨s.latch_sSeed e info, s.latch_sOct e info, s.latch_sOff e info, s.latch_sScl e info, s.latch_sp e info,
    s.latch_sm12 e info, s.latch_sm32 e info, s.latch_sbuilt e info⟩

theorem CommandEffect.samePerlin (h : CommandEffect i s t) (hi : configuresPerlin i = false) : s.samePerlin t := by
  cases h with
  | raised e => exact samePerlin_latch s e _
  | perlinBuilt seed freq hset => exact absurd hset (by rw [hi]; decide)
  | perlinSet oct off scl hset => exact absurd hset (by rw [hi]; decide)
  | _ => exact ⟨rfl, rfl, rfl, rfl, rfl, rfl, rfl, rfl⟩

theorem CommandEffect.sameSimplex (h : CommandEffect i s t) (hi : configuresSimplex i = false) : s.sameSimplex t := by
  cases h with
  | raised e => exact sameSimplex_latch s e _
  | simplexBuilt seed hset => exact absurd hset (by rw [hi]; decide)
  | simplexSet oct off scl hset => exact absurd hset (by rw [hi]; decide)
  | _ => exact ⟨rfl, rfl, rfl, rfl, rfl, rfl, rfl, rfl⟩

theorem CommandEffect.guards_kept (h : CommandEffect i s t) :
    (s.seeded = true → t.seeded = true) ∧ (s.pbuilt = true → t.pbuilt = true) ∧ (s.sbuilt = true → t.sbuilt = true) := by
  cases h with
  | raised e => simp only [State.raise_seeded, State.raise_pbuilt, State.raise_sbuilt, imp_self, and_self]
  | seededWith g => exact ⟨fun _ => rfl, id, id⟩
  | perlinBuilt seed freq => exact ⟨id, fun _ => rfl, id⟩
  | simplexBuilt seed => exact ⟨id, id, fun _ => rfl⟩
  | _ => exact ⟨id, id, id⟩

/-- Settles O59: component by component, by the effects of a command. -/
theorem componentsChangeOnlyByTheirCommands : Obligations.ComponentsChangeOnlyByTheirCommands := by
  unfold Obligations.ComponentsChangeOnlyByTheirCommands
  intro i s t h
  have heffect := exec_effect h
  exact ⟨heffect.gen_eq, heffect.seeded_eq, heffect.samePerlin, heffect.sameSimplex, heffect.guards_kept⟩

end Sys2Proof.Machine
end

section
/-! CLAIM. A noise evaluation reads the operand registers and its own generator alone (10_state.md R31, 43_octave_perlin.md R220,
R221). -/

namespace Sys2Proof.Machine

variable {s t : State}

theorem raise_ecode_congr (he : s.ecode = t.ecode) (e : Err) (i : Instr) : (s.raise e i).ecode = (t.raise e i).ecode := by
  by_cases hs : s.ecode = 0
  · rw [State.raise_of_clear hs, State.raise_of_clear (he ▸ hs)]
    rfl
  · rw [State.raise, State.raise, State.latch_of_set hs, State.latch_of_set (he ▸ hs), he]

/-- Two evaluations of the same value, in states with the same registers and the same latch, end alike. -/
theorem evaluate_congr (hr : s.r = t.r) (he : s.ecode = t.ecode) {i : Instr} {rd : Reg} {built built' : Bool}
    {value : State → Option F64} (hb : built = built') (hv : value s = value t) {s' t' : State}
    (hs : evaluate i rd built value s = .next s') (ht : evaluate i rd built' value t = .next t') :
    s'.r = t'.r ∧ s'.ecode = t'.ecode := by
  have raised (e : Err) : (s.raise e i).r = (t.raise e i).r ∧ (s.raise e i).ecode = (t.raise e i).ecode :=
    ⟨by rw [State.raise_r, State.raise_r, hr], raise_ecode_congr he e i⟩
  subst hb
  simp only [evaluate, checkLegal] at hs ht
  cases hw : i.wellFormed with
  | false => rw [hw] at hs ht; cases hs; cases ht; exact raised _
  | true =>
    rw [hw] at hs ht
    cases built with
    | false => cases hs; cases ht; exact raised _
    | true =>
      simp only [check_true, hv] at hs ht
      cases hvalue : value t with
      | none => rw [hvalue] at hs ht; cases hs; cases ht; exact raised _
      | some v =>
        rw [hvalue] at hs ht
        cases hs
        cases ht
        exact ⟨congrArg (·.set rd (fToBits v)) hr, he⟩

theorem group_congr (hr : s.r = t.r) (ra : Reg) (n : Nat) : s.group ra n = t.group ra n := by
  simp only [State.group, State.regF, State.reg, hr]

/-! Perlin noise. -/

theorem walk_congr (hval : t.val = s.val) (hperm : t.perm = s.perm) (axes : List (Nat × F64)) (a off : Nat) :
    s.walk axes a off = t.walk axes a off := by
  have hv (k : Nat) : s.valAt k = t.valAt k := by rw [State.valAt, State.valAt, hval]
  have hp (a k : Nat) : s.permAt a k = t.permAt a k := by rw [State.permAt, State.permAt, hperm]
  induction a generalizing off with
  | zero => simp only [State.walk, hv, hp]
  | succ a ih => simp only [State.walk, ih, hp]

theorem perlinNoise_congr (hr : s.r = t.r) (h : s.samePerlin t) (ra : Reg) (d : Nat) :
    s.perlinNoise ra d = t.perlinNoise ra d := by
  obtain ⟨-, hfreq, hoct, hoff, hscl, hval, hperm, -⟩ := h
  have hbase : s.perlinBase = t.perlinBase := by
    funext c
    simp only [State.perlinBase, State.freq, hfreq, walk_congr hval hperm]
  simp only [State.perlinNoise, hbase, group_congr hr, hoct, hoff, hscl]

/-! Simplex noise. -/

theorem cornerIndex_congr (hsp : t.sp = s.sp) (idx : List Int) (o : List Nat) :
    s.cornerIndex idx o = t.cornerIndex idx o := by
  have chain_eq (ks : List Nat) : s.chain ks = t.chain ks := by
    induction ks with
    | nil => rfl
    | cons k ks ih =>
      cases ks with
      | nil => rfl
      | cons l ls => simp only [State.chain, State.spAt, hsp] at ih ⊢; rw [ih]
  exact chain_eq _

theorem simplexBases_congr (h : s.sameSimplex t) :
    s.simplexBase2 = t.simplexBase2 ∧ s.simplexBase3 = t.simplexBase3 ∧ s.simplexBase4 = t.simplexBase4 := by
  obtain ⟨-, -, -, -, hsp, hsm12, hsm32, -⟩ := h
  have h12 (k : Nat) : s.sm12At k = t.sm12At k := by rw [State.sm12At, State.sm12At, hsm12]
  have h32 (k : Nat) : s.sm32At k = t.sm32At k := by rw [State.sm32At, State.sm32At, hsm32]
  refine ⟨?_, ?_, ?_⟩ <;> funext c
  · simp only [State.simplexBase2, cornerIndex_congr hsp, h12]
  · simp only [State.simplexBase3, cornerIndex_congr hsp, h12]
  · simp only [State.simplexBase4, cornerIndex_congr hsp, h32]

theorem simplexNoise_congr (hr : s.r = t.r) (h : s.sameSimplex t) (base : List F64 → Option F64) (ra : Reg) (d : Nat) :
    s.simplexNoise base ra d = t.simplexNoise base ra d := by
  obtain ⟨-, hoct, hoff, hscl, -⟩ := h
  simp only [State.simplexNoise, group_congr hr, hoct, hoff, hscl]

theorem mip_congr (h : s.sameSimplex t) (size : F64) (p : List F64) : s.mip size p = t.mip size p := by
  obtain ⟨-, hbase, -⟩ := simplexBases_congr h
  simp only [State.mip, hbase]

/-- Settles O60: each evaluation's value is the same function of the registers and of its own generator. -/
theorem evaluationsReadOnlyTheirOwnState : Obligations.EvaluationsReadOnlyTheirOwnState := by
  unfold Obligations.EvaluationsReadOnlyTheirOwnState
  intro rd ra s t he hr
  constructor
  · intro hsame i hi s' t' hs ht
    have hnoise := perlinNoise_congr hr hsame ra
    obtain ⟨-, -, -, -, -, -, -, hbuilt⟩ := hsame
    simp only [List.mem_cons, List.not_mem_nil, or_false] at hi
    rcases hi with rfl | rfl | rfl | rfl
    · exact evaluate_congr hr he hbuilt.symm (hnoise 1) hs ht
    · exact evaluate_congr hr he hbuilt.symm (hnoise 2) hs ht
    · exact evaluate_congr hr he hbuilt.symm (hnoise 3) hs ht
    · exact evaluate_congr hr he hbuilt.symm (hnoise 4) hs ht
  · intro hsame i hi s' t' hs ht
    have hnoise := fun base => simplexNoise_congr hr hsame base ra
    have hmip := mip_congr hsame
    obtain ⟨h2, h3, h4⟩ := simplexBases_congr hsame
    obtain ⟨-, -, -, -, -, -, -, hbuilt⟩ := hsame
    simp only [List.mem_cons, List.not_mem_nil, or_false] at hi
    rcases hi with rfl | rfl | rfl | rfl
    · exact evaluate_congr hr he hbuilt.symm (by rw [hnoise, h2]) hs ht
    · exact evaluate_congr hr he hbuilt.symm (by rw [hnoise, h3]) hs ht
    · exact evaluate_congr hr he hbuilt.symm (by rw [hnoise, h4]) hs ht
    · exact evaluate_congr hr he hbuilt.symm (by rw [hmip, group_congr hr, State.regF, State.reg, hr]; rfl) hs ht

end Sys2Proof.Machine
end

section
/-! CLAIM. Reset (70_reset_and_hazards.md R41, R340): the values of the reset table, and the invariants. -/

namespace Sys2Proof.Machine

theorem status_eq_zero {s : State} (hseeded : s.seeded = false) (hpbuilt : s.pbuilt = false) (hsbuilt : s.sbuilt = false)
    (hecode : s.ecode = 0) : s.status = 0 := by
  rw [State.status, State.err, hseeded, hpbuilt, hsbuilt, hecode]
  decide

/-- Settles O12: the state after any reset holds the values of the table, whatever the port and the last read returned. -/
theorem resetGivesTheSpecifiedValues : Obligations.ResetGivesTheSpecifiedValues := by
  unfold Obligations.ResetGivesTheSpecifiedValues
  intro good
  have good_reset (k : Nat) (port : List HostAccess) (rdata : Word64) :
      good { State.resetAt k with port := port, rdata := rdata } := by
    refine ⟨fun k => Vector.getElem_replicate _, rfl, status_eq_zero rfl rfl rfl rfl, rfl, rfl, rfl, rfl, rfl, rfl, rfl, rfl,
      rfl, rfl, rfl, fun a => ?_⟩
    exact ⟨Vector.getElem_replicate _, Vector.getElem_replicate _, Vector.getElem_replicate _, Vector.getElem_replicate _⟩
  exact ⟨good_reset 0 [] 0, fun s => ⟨_, rfl, good_reset (s.epoch + 1) s.port s.rdata⟩⟩

/-- The registers and the buffer are legal after any reset. -/
theorem resetAt_wf (k : Nat) : (State.resetAt k).wf :=
  ⟨Memory.reset_wf k, (by decide : (312 : BitVec 9).toNat ≤ 312), (by decide : 1 ≤ (256 : Word64).toNat),
    (by decide : (256 : Word64).toNat ≤ Config.pFreqMax), Nat.zero_le 7, fun _ => rfl⟩

theorem perlinTablesOk_of_not_built {s : State} (h : s.pbuilt = false) : s.perlinTablesOk :=
  fun hbuilt => absurd hbuilt (by rw [h]; decide)

theorem simplexTablesOk_of_not_built {s : State} (h : s.sbuilt = false) : s.simplexTablesOk :=
  fun hbuilt => absurd hbuilt (by rw [h]; decide)

/-- Settles O56: the reset values are legal, and no table is built. -/
theorem resetHasTheInvariants : Obligations.ResetHasTheInvariants := by
  unfold Obligations.ResetHasTheInvariants
  exact ⟨resetAt_wf 0, perlinTablesOk_of_not_built rfl, simplexTablesOk_of_not_built rfl⟩

end Sys2Proof.Machine
end

section
/-! CLAIM. Every step keeps the registers and the buffer legal (10_state.md R25, R28, R29, R37, 60_exceptions.md R301). -/

namespace Sys2Proof.Machine

variable {s t : State}

theorem Err.code_bounds (e : Err) : e.code ≠ 0 ∧ e.code.toNat ≤ 7 := by
  cases e <;> decide

theorem wf_latch (hs : s.wf) (e : Err) (info : Word64) : (s.latch e info).wf := by
  by_cases hclear : s.ecode = 0
  · obtain ⟨hbuf, hmti, hlow, hhigh, -, -⟩ := hs
    obtain ⟨hne, hle⟩ := e.code_bounds
    rw [State.latch_of_clear hclear]
    exact ⟨hbuf, hmti, hlow, hhigh, hle, fun h => absurd h hne⟩
  · rwa [State.latch_of_set hclear]

theorem wf_clearError (hs : s.wf) : s.clearError.wf := by
  obtain ⟨hbuf, hmti, hlow, hhigh, -, -⟩ := hs
  exact ⟨hbuf, hmti, hlow, hhigh, Nat.zero_le 7, fun _ => rfl⟩

theorem wf_setGen (hs : s.wf) {g : Gen} (hg : g.mti.toNat ≤ 312) : (s.setGen g).wf := by
  obtain ⟨hbuf, -, hrest⟩ := hs
  exact ⟨hbuf, hg, hrest⟩

theorem wf_storeBytes (hs : s.wf) {addr : Nat} {bs : List Byte} (h : addr + bs.length ≤ Config.bufBytes) :
    (s.storeBytes addr bs).wf := by
  obtain ⟨hbuf, hrest⟩ := hs
  exact ⟨Memory.store_wf hbuf h, hrest⟩

theorem wf_withFreq (hs : s.wf) {seed freq : Word64}
    (hf : freq = s.pFreq ∨ 1 ≤ freq.toNat ∧ freq.toNat ≤ Config.pFreqMax) :
    ({ s with pSeed := seed, pFreq := freq } : State).wf := by
  obtain ⟨hbuf, hmti, hlow, hhigh, hlatch⟩ := hs
  rcases hf with rfl | ⟨hlow', hhigh'⟩
  · exact ⟨hbuf, hmti, hlow, hhigh, hlatch⟩
  · exact ⟨hbuf, hmti, hlow', hhigh', hlatch⟩

theorem State.wf.mti_le (hs : s.wf) : s.gen.mti.toNat ≤ 312 := by
  obtain ⟨-, hmti, -⟩ := hs
  exact hmti

theorem CommandEffect.wf {i : Instr} (h : CommandEffect i s t) (hs : s.wf) : t.wf := by
  cases h with
  | raised e => exact wf_latch hs e _
  | cleared => exact wf_clearError hs
  | seededWith g _ hg => exact wf_setGen hs hg
  | stored bs _ hbuf => exact wf_storeBytes hs (by rwa [Nat.zero_add])
  | filled n bs _ _ hbuf =>
    exact wf_storeBytes (wf_setGen hs (drawWords_mti_le n hs.mti_le)) (by rwa [Nat.zero_add])
  | drew n rd v => exact wf_setGen hs (drawWords_mti_le n hs.mti_le)
  | drewPair rd lo hi => exact wf_setGen hs (nextWord_mti_le s.gen)
  | perlinBuilt seed freq _ hf => exact wf_withFreq (seed := seed) hs hf
  | _ => exact hs

theorem AccessEffect.wf (h : AccessEffect s t) (hs : s.wf) : t.wf := by
  cases h with
  | refusedRead info => exact wf_latch (s := { s with rdata := 0 }) hs .bus info
  | refusedWrite e info => exact wf_latch hs e info
  | ran i h => exact h.wf hs
  | wroteBuf addr bs h => exact wf_storeBytes hs h
  | reset => exact resetAt_wf (s.epoch + 1)
  | _ => exact hs

/-- Settles O53: by the effects of an access, each of which keeps every part of `wf`. -/
theorem stepKeepsTheRegistersWellFormed : Obligations.StepKeepsTheRegistersWellFormed := by
  unfold Obligations.StepKeepsTheRegistersWellFormed
  intro s t hs h
  rcases step_effect h with rfl | heffect
  · exact hs
  · exact heffect.wf hs

end Sys2Proof.Machine
end

section
/-! CLAIM. Every step keeps the invariants of the built simplex tables (10_state.md R34). -/

namespace Sys2Proof.Machine

variable {s t : State}

theorem vector_getD_of_lt {α : Type} {n k : Nat} (v : Vector α n) (d : α) (h : k < n) : v.getD k d = v[k] := by
  simp only [Vector.getD, Array.getD, Vector.size_toArray, h, dite_true]
  rfl

/-- Entry `k` of a built table is the low byte of word `k mod 256` (R262). -/
theorem spAt_simplexBuild (s : State) {k : Nat} (hk : k < 512) : s.simplexBuild.spAt k =
    (((drawWords 256 (initState s.sSeed)).1.getD (k % 256) 0).setWidth 8 : Byte).toNat := by
  simp only [State.spAt, State.simplexBuild, spTable, vector_getD_of_lt _ _ hk, Vector.getElem_ofFn]

/-! The reductions are entry by entry (R262). -/

theorem sm12At_of_map (h : s.sm12 = s.sp.map fun b => Fin.ofNat 12 b.toNat) {k : Nat} (hk : k < 512) :
    s.sm12At k = s.spAt k % 12 := by
  rw [State.sm12At, State.spAt, h, vector_getD_of_lt _ _ hk, vector_getD_of_lt _ _ hk, Vector.getElem_map, Fin.val_ofNat]

theorem sm32At_of_map (h : s.sm32 = s.sp.map fun b => Fin.ofNat 32 b.toNat) {k : Nat} (hk : k < 512) :
    s.sm32At k = s.spAt k % 32 := by
  rw [State.sm32At, State.spAt, h, vector_getD_of_lt _ _ hk, vector_getD_of_lt _ _ hk, Vector.getElem_map, Fin.val_ofNat]

theorem simplexBuild_tablesOk (s : State) : s.simplexBuild.simplexTablesOk := by
  refine fun _ => ⟨fun k hk => ?_, fun k hk => ⟨sm12At_of_map rfl hk, sm32At_of_map rfl hk⟩⟩
  rw [spAt_simplexBuild s (by omega), spAt_simplexBuild s (by omega), Nat.add_mod_left]

theorem simplexTablesOk_congr (h : s.sameSimplex t) (hs : s.simplexTablesOk) : t.simplexTablesOk := by
  obtain ⟨-, -, -, -, hsp, hsm12, hsm32, hbuilt⟩ := h
  simp only [State.simplexTablesOk, State.spAt, State.sm12At, State.sm32At, hsp, hsm12, hsm32, hbuilt] at hs ⊢
  exact hs

theorem CommandEffect.simplexTablesOk {i : Instr} (h : CommandEffect i s t) (hs : s.simplexTablesOk) :
    t.simplexTablesOk := by
  cases h with
  | raised e => exact simplexTablesOk_congr (sameSimplex_latch s e _) hs
  | simplexBuilt seed => exact simplexBuild_tablesOk _
  | _ => exact hs

theorem AccessEffect.simplexTablesOk (h : AccessEffect s t) (hs : s.simplexTablesOk) : t.simplexTablesOk := by
  cases h with
  | refusedRead info => exact simplexTablesOk_congr (sameSimplex_latch { s with rdata := 0 } .bus info) hs
  | refusedWrite e info => exact simplexTablesOk_congr (sameSimplex_latch s e info) hs
  | ran i h => exact h.simplexTablesOk hs
  | reset => exact simplexTablesOk_of_not_built rfl
  | _ => exact hs

/-- Settles O55: the builds make the tables so, and nothing else but reset touches them. -/
theorem stepKeepsTheSimplexTables : Obligations.StepKeepsTheSimplexTables := by
  unfold Obligations.StepKeepsTheSimplexTables
  intro s t hs h
  rcases step_effect h with rfl | heffect
  · exact hs
  · exact heffect.simplexTablesOk hs

end Sys2Proof.Machine
end

section
/-! SUPPORT. The unit double and the 32-bit mapping of a word (41_rangemap.md R159, R165): exact, and below the span that is
asked for. -/

namespace Sys2Proof.Machine

/-- An exact quotient that is representable is the rounded one. -/
theorem fRound_of_exact (neg : Bool) {m den : Nat} (hden : 0 < den) (h : representable m) :
    fRound neg (m * den) den = .fin neg m := by
  obtain ⟨hnear, -⟩ := roundedMag_nearest (m * den) hden h
  have hmul : roundedMag (m * den) den * den = m * den := by
    push_cast at hnear
    zify
    omega
  have hmag := Nat.eq_of_mul_eq_mul_right hden hmul
  have hlt : m < fOverflow := by
    obtain ⟨-, -, -, -, hlt⟩ := h
    exact hlt
  rw [fRound_eq, hmag, if_neg (not_le.2 hlt)]

/-- Rounding does not reach `m` from below a gap of half a unit in the last place. -/
theorem roundedMag_lt {num den m : Nat} (hden : 0 < den) (hgap : m * den ≤ 2 ^ 53 * (m * den - num))
    (hunit : den < 2 * (m * den - num)) : roundedMag num den < m := by
  obtain ⟨herr, -⟩ := roundHalfEven_error num (quantum_pos num hden)
  by_contra hle
  have hreach : m * den ≤ roundHalfEven num (quantum num den) * quantum num den :=
    (Nat.mul_le_mul_right den (not_lt.1 hle)).trans_eq (roundedMag_mul_den num den)
  by_cases hexp : roundExp num den = 0
  · have hquantum : quantum num den = den := by rw [quantum, hexp, pow_zero, mul_one]
    rw [hquantum] at herr hreach
    zify at hreach
    omega
  · have hquantum := quantum_le hden hexp
    zify at hreach
    omega

theorem shiftRight_eleven_lt (w : Word64) : (w >>> 11).toNat < 2 ^ 53 := by
  have hlt := w.isLt
  rw [BitVec.toNat_ushiftRight, Nat.shiftRight_eq_div_pow]
  omega

/-- The magnitude of 2^-53, the last place of the unit doubles. -/
def unitPart : Nat := 2 ^ 1021

theorem twoPowMinus53_eq : twoPowMinus53 = .fin false unitPart := rfl

theorem unitPart_pos : 0 < unitPart := pow_pos two_pos 1021

theorem fUnit_eq : fUnit = 2 ^ 53 * unitPart := by rw [fUnit, unitPart, ← pow_add]

/-- The product of finite values in the unit in which magnitudes are counted. -/
theorem fMul_fin_fUnit (a b : Bool) (m n : Nat) : fMul (.fin a m) (.fin b n) = fRound (a ^^ b) (m * n) fUnit := rfl

theorem fOfInt_natCast {n : Nat} (h : n ≤ 2 ^ 53) : fOfInt n = .fin false (n * fUnit) := by
  have hnonneg : decide ((n : Int) < 0) = false := decide_eq_false (not_lt.2 (Int.natCast_nonneg n))
  rw [fOfInt_exact (by rwa [Int.natAbs_natCast]), hnonneg, Int.natAbs_natCast, fUnit]

theorem representable_mul_unitPart {k : Nat} (h : k < 2 ^ 53) : representable (k * unitPart) :=
  representable_mul_two_pow h (by decide)

/-- The truncated unit double of a word is its top 53 bits, over `2^53`, without rounding. -/
theorem unitTrunc_eq (w : Word64) : unitTrunc w = .fin false ((w >>> 11).toNat * unitPart) := by
  have hlt := shiftRight_eleven_lt w
  rw [unitTrunc, fOfInt_natCast hlt.le, twoPowMinus53_eq, fMul_fin_fUnit, mul_right_comm]
  exact fRound_of_exact _ fUnit_pos (representable_mul_unitPart hlt)

/-- The truncated unit double lies in [0, 1), as a value and as a pattern. -/
theorem unitTrunc_bounds (w : Word64) :
    fLe fZero (fOfBits (fToBits (unitTrunc w))) = true ∧ fLt (fOfBits (fToBits (unitTrunc w))) fOne = true := by
  have hlt := shiftRight_eleven_lt w
  rw [unitTrunc_eq, fOfBits_fToBits_fin false (representable_mul_unitPart hlt)]
  refine ⟨(fLe_iff (fKey_fin ..) (fKey_fin ..)).2 ?_, (fLt_iff (fKey_fin ..) (fKey_fin ..)).2 ?_⟩
  · rw [fSigned_false, fSigned_false, Nat.cast_le]
    exact Nat.zero_le _
  · rw [fSigned_false, fSigned_false, Nat.cast_lt, ← fUnit, fUnit_eq]
    exact Nat.mul_lt_mul_of_pos_right hlt unitPart_pos

/-- A number of fewer than `2^53` parts in `2^53`, times a whole number, rounds to less than that number. -/
theorem roundedMag_part_lt {k n p d : Nat} (hk : k < 2 ^ 53) (hn : 0 < n) (hp : 0 < p) (hd : d = 2 ^ 53 * p) :
    roundedMag (k * p * (n * d)) d < n * d := by
  have hunit := Nat.le_mul_of_pos_left d (Nat.mul_pos hp hn)
  have hgap := Nat.mul_le_mul_right (p * n * d) (Nat.succ_le_of_lt hk)
  rw [Nat.succ_mul] at hgap
  have hnum : k * p * (n * d) = k * (p * n * d) := by ring
  have htop : n * d * d = 2 ^ 53 * (p * n * d) := by
    conv_lhs => enter [2]; rw [hd]
    ring
  apply roundedMag_lt (by omega) <;> rw [hnum, htop] <;> omega

/-- The rounded product of a truncated unit double with a whole number stays below that number. -/
theorem fMul_unitTrunc (w : Word64) {n : Nat} (hpos : 0 < n) (hn : n ≤ 2 ^ 53) :
    ∃ mag, fMul (unitTrunc w) (fOfInt n) = .fin false mag ∧ mag < n * fUnit := by
  have hmag := roundedMag_part_lt (shiftRight_eleven_lt w) hpos unitPart_pos fUnit_eq
  obtain ⟨-, -, -, -, hover⟩ := representable_of_le (e := 1074) hn (by decide)
  rw [unitTrunc_eq, fOfInt_natCast hn, fMul_fin_fUnit, fRound_eq]
  exact ⟨_, if_neg (not_le.2 (hmag.trans hover)), hmag⟩

/-- The 32-bit mapping gives a number of the range (R159), for every range of at most `2^53` numbers. -/
theorem map32_bounds (w : Word64) {lo hi : Int} (h : lo ≤ hi) (hspan : hi - lo < 2 ^ 53) :
    lo ≤ map32 w lo hi ∧ map32 w lo hi ≤ hi := by
  obtain ⟨n, hn⟩ := Int.eq_ofNat_of_zero_le (show 0 ≤ hi - lo + 1 by omega)
  obtain ⟨mag, hproduct, hmag⟩ := fMul_unitTrunc w (n := n) (by omega) (by omega)
  have hfloor : mag / fUnit < n := Nat.div_lt_of_lt_mul (by rwa [mul_comm])
  have hmap : map32 w lo hi = lo + (mag / fUnit : Nat) := by
    rw [map32, hn, hproduct, ifloor, fSigned_false, Option.getD_some, Int.natCast_ediv]
  generalize mag / fUnit = q at hfloor hmap
  omega

end Sys2Proof.Machine
end

section
/-! SUPPORT. The tables of a Perlin build (43_octave_perlin.md R229): every shuffle permutes the entries in use, and the tables
hold what was shuffled. -/

namespace Sys2Proof.Machine

theorem swapAt_perm {p : List Nat} {i j : Nat} (hi : i < p.length) (hj : j < p.length) : (swapAt p i j).Perm p := by
  rw [swapAt, List.getD_eq_getElem _ _ hi, List.getD_eq_getElem _ _ hj]
  exact List.set_set_perm hi hj

/-- The partner of an entry is an entry in use. -/
theorem shufflePartner_lt (w : Word64) {freq : Nat} (hpos : 0 < freq) (hmax : freq ≤ Config.pFreqMax) :
    (map32 w 0 ((freq : Int) - 1)).toNat < freq := by
  have hmax : freq ≤ 4096 := hmax
  have hbounds := map32_bounds w (lo := 0) (hi := (freq : Int) - 1) (by omega) (by omega)
  omega

/-- What each step of a shuffle keeps: the first `freq` entries are a permutation of `0 .. freq − 1` (R30). -/
def ShufflesRange (freq : Nat) (st : List Nat × Gen) : Prop := st.1.Perm (List.range freq)

theorem shuffleStep_fst (freq : Nat) (st : List Nat × Gen) (i : Nat) : (shuffleStep freq st i).1 =
    swapAt st.1 i (map32 (nextWord st.2).1 0 ((freq : Int) - 1)).toNat := rfl

section
variable {freq : Nat} (hmax : freq ≤ Config.pFreqMax)
include hmax

theorem ShufflesRange.step {st : List Nat × Gen} (h : ShufflesRange freq st) {i : Nat} (hi : i < freq) :
    ShufflesRange freq (shuffleStep freq st i) := by
  have hlen : st.1.length = freq := h.length_eq.trans List.length_range
  have hpartner := shufflePartner_lt (nextWord st.2).1 (Nat.zero_lt_of_lt hi) hmax
  rw [ShufflesRange, shuffleStep_fst]
  exact (swapAt_perm (hi.trans_eq hlen.symm) (hpartner.trans_eq hlen.symm)).trans h

theorem ShufflesRange.pass {st : List Nat × Gen} (h : ShufflesRange freq st) :
    ShufflesRange freq (shufflePass freq st) := by
  have steps (l : List Nat) (hl : ∀ i ∈ l, i < freq) (st : List Nat × Gen) (h : ShufflesRange freq st) :
      ShufflesRange freq (l.foldl (shuffleStep freq) st) := by
    induction l generalizing st with
    | nil => exact h
    | cons i l ih =>
      obtain ⟨hi, hl⟩ := List.forall_mem_cons.1 hl
      exact ih hl _ (h.step hmax hi)
  exact steps _ (fun i hi => List.mem_range.1 hi) st h

theorem ShufflesRange.passes (n : Nat) {st : List Nat × Gen} (h : ShufflesRange freq st) :
    ShufflesRange freq (repeatTimes (shufflePass freq) n st) := by
  induction n generalizing st with
  | zero => exact h
  | succ n ih => exact ih (h.pass hmax)

theorem shuffledAxis_perm (g : Gen) : (shuffledAxis freq g).1.Perm (List.range freq) :=
  ShufflesRange.passes hmax Config.shufflePasses (.refl _)

theorem shuffledAxes_perm (g : Gen) (a : Nat) (ha : a < 4) : (shuffledAxes freq g)[a].Perm (List.range freq) := by
  match a, ha with
  | 0, _ | 1, _ | 2, _ | 3, _ => exact shuffledAxis_perm hmax _

end

/-- An entry in use of a table that is installed, in either half. -/
theorem installAxis_getD {p : List Nat} {k : Nat} (hk : k < 2 * p.length) (hsize : 2 * p.length ≤ 8192)
    (old : Vector Nat 8192) : (installAxis p old).getD k 0 = (p ++ p).getD k 0 := by
  have hlen : k < (p ++ p).length := by rw [List.length_append]; omega
  rw [vector_getD_of_lt _ _ (by omega), installAxis, Vector.getElem_ofFn, List.getD_eq_getElem _ _ hlen,
    List.getD_eq_getElem _ _ hlen]

theorem map_installAxis {p : List Nat} (hsize : 2 * p.length ≤ 8192) (old : Vector Nat 8192) :
    (List.range p.length).map (fun k => (installAxis p old).getD k 0) = p := by
  refine List.ext_getElem (by rw [List.length_map, List.length_range]) fun k _ hk => ?_
  rw [List.getElem_map, List.getElem_range, installAxis_getD (by omega) hsize, List.getD_append _ _ _ _ hk,
    List.getD_eq_getElem _ _ hk]

theorem installAxis_second_half {p : List Nat} {k : Nat} (hk : k < p.length) (hsize : 2 * p.length ≤ 8192)
    (old : Vector Nat 8192) : (installAxis p old).getD (p.length + k) 0 = (installAxis p old).getD k 0 := by
  rw [installAxis_getD (by omega) hsize, installAxis_getD (by omega) hsize, List.getD_append_right _ _ _ _ (by omega),
    List.getD_append _ _ _ _ hk, Nat.add_sub_cancel_left]

/-- An entry in use of the value lattice is the pattern of a truncated unit double. -/
theorem installValues_getD {ws : List Word64} {k : Nat} (hk : k < ws.length) (hsize : ws.length ≤ 4096)
    (old : Vector Word64 4096) : ∃ w, (installValues ws old).getD k 0 = fToBits (unitTrunc w) := by
  have hlen : k < (ws.map fun w => fToBits (unitTrunc w)).length := by rwa [List.length_map]
  refine ⟨ws[k], ?_⟩
  rw [vector_getD_of_lt _ _ (by omega), installValues, Vector.getElem_ofFn, List.getD_eq_getElem _ _ hlen, List.getElem_map]

variable (s : State)

/-- The value lattice after a build (R229). -/
theorem valAt_perlinBuild (k : Nat) : s.perlinBuild.valAt k =
    fOfBits ((installValues (drawWords s.freq (initState s.pSeed)).1 s.val).getD k 0) := rfl

/-- The table of an axis after a build (R229). -/
theorem permAt_perlinBuild {a : Nat} (ha : a < 4) (k : Nat) : s.perlinBuild.permAt a k =
    (installAxis (shuffledAxes s.freq (drawWords s.freq (initState s.pSeed)).2)[a] s.perm[a]).getD k 0 := by
  rw [State.permAt, vector_getD_of_lt _ _ ha, State.perlinBuild, Vector.getElem_ofFn]
  rfl

/-- A build makes the tables what R30 says they are. -/
theorem perlinBuild_tablesOk (hmax : s.freq ≤ Config.pFreqMax) : s.perlinBuild.perlinTablesOk := by
  have hfreq : s.perlinBuild.freq = s.freq := rfl
  have hsize : s.freq ≤ 4096 := hmax
  refine fun _ => ⟨fun k hk => ?values, fun a ha => ?axes⟩
  case values =>
    obtain ⟨w, hw⟩ := installValues_getD (ws := (drawWords s.freq (initState s.pSeed)).1) (k := k)
      (by rwa [drawWords_length]) (by rwa [drawWords_length]) s.val
    rw [valAt_perlinBuild, hw]
    exact unitTrunc_bounds w
  case axes =>
    have hperm := shuffledAxes_perm hmax (drawWords s.freq (initState s.pSeed)).2 a ha
    have hlen := hperm.length_eq.trans List.length_range
    rw [hfreq, funext (permAt_perlinBuild s ha)]
    generalize (shuffledAxes s.freq (drawWords s.freq (initState s.pSeed)).2)[a] = p at hperm hlen
    rw [← hlen] at hperm hsize ⊢
    refine ⟨?_, fun k hk => installAxis_second_half hk (by omega) _⟩
    rwa [map_installAxis (by omega)]

end Sys2Proof.Machine
end

section
/-! CLAIM. Every step keeps the invariants of the built Perlin tables (10_state.md R30). -/

namespace Sys2Proof.Machine

variable {s t : State}

theorem perlinTablesOk_congr (h : s.samePerlin t) (hs : s.perlinTablesOk) : t.perlinTablesOk := by
  obtain ⟨-, hfreq, -, -, -, hval, hperm, hbuilt⟩ := h
  have hv (k : Nat) : t.valAt k = s.valAt k := by rw [State.valAt, State.valAt, hval]
  have hp (a : Nat) : t.permAt a = s.permAt a := by funext k; rw [State.permAt, State.permAt, hperm]
  simp only [State.perlinTablesOk, State.freq, hv, hp, hfreq, hbuilt] at hs ⊢
  exact hs

theorem State.wf.freq_le (hs : s.wf) : s.freq ≤ Config.pFreqMax := by
  obtain ⟨-, -, -, hmax, -⟩ := hs
  exact hmax

theorem CommandEffect.perlinTablesOk {i : Instr} (h : CommandEffect i s t) (hw : s.wf) (hs : s.perlinTablesOk) :
    t.perlinTablesOk := by
  cases h with
  | raised e => exact perlinTablesOk_congr (samePerlin_latch s e _) hs
  | perlinBuilt seed freq _ hf => exact perlinBuild_tablesOk _ (wf_withFreq (seed := seed) hw hf).freq_le
  | _ => exact hs

theorem AccessEffect.perlinTablesOk (h : AccessEffect s t) (hw : s.wf) (hs : s.perlinTablesOk) : t.perlinTablesOk := by
  cases h with
  | refusedRead info => exact perlinTablesOk_congr (samePerlin_latch { s with rdata := 0 } .bus info) hs
  | refusedWrite e info => exact perlinTablesOk_congr (samePerlin_latch s e info) hs
  | ran i h => exact h.perlinTablesOk hw hs
  | reset => exact perlinTablesOk_of_not_built rfl
  | _ => exact hs

/-- Settles O54: a build shuffles `0 .. F − 1` by swaps within it and stores truncated unit doubles, and nothing else but reset
touches the tables or the frequency. -/
theorem stepKeepsThePerlinTables : Obligations.StepKeepsThePerlinTables := by
  unfold Obligations.StepKeepsThePerlinTables
  intro s t hw hs h
  rcases step_effect h with rfl | heffect
  · exact hs
  · exact heffect.perlinTablesOk hw hs

end Sys2Proof.Machine
end

section
/-! SUPPORT. What an access at the host port returns or does, by its offset and size (20_memory.md R61 to R68). -/

namespace Sys2Proof.Machine

/-! The shapes of an access. -/

theorem registerAccess_iff {o size : Nat} : registerAccess o size = true ↔ o < 0x1000 ∧ size = 8 ∧ o % 8 = 0 := by
  simp only [registerAccess, Bool.and_eq_true, beq_iff_eq, decide_eq_true_eq, and_assoc]

theorem windowAccess_iff {o size : Nat} :
    windowAccess o size = true ↔ 0x1000 ≤ o ∧ (size = 1 ∨ size = 2 ∨ size = 4 ∨ size = 8) ∧ o % size = 0 := by
  simp only [windowAccess, Bool.and_eq_true, Bool.or_eq_true, beq_iff_eq, decide_eq_true_eq, and_assoc, or_assoc]

/-- An access of neither shape is one that R68 refuses whatever its direction. -/
theorem badShape_iff {o size : Nat} : badShape o size ↔ registerAccess o size = false ∧ windowAccess o size = false := by
  rw [← Bool.not_eq_true, ← Bool.not_eq_true, registerAccess_iff, windowAccess_iff, badShape]
  by_cases hsize : size = 8
  · subst hsize; omega
  · omega

/-- No access has both shapes. -/
theorem registerAccess_eq_false_of_window {o size : Nat} (h : windowAccess o size = true) : registerAccess o size = false := by
  obtain ⟨hlow, -⟩ := windowAccess_iff.1 h
  rw [← Bool.not_eq_true, registerAccess_iff]
  omega

/-- Every access is one of a register, one of the window, or refused for its shape. -/
theorem access_shape_cases (o size : Nat) :
    registerAccess o size = true ∨ windowAccess o size = true ∨ badShape o size := by
  rw [badShape_iff]
  cases registerAccess o size <;> cases windowAccess o size <;> simp

/-! What a read returns and what a write does, by shape. -/

section
variable {o size : Nat}

theorem State.hostRead_register (s : State) (h : registerAccess o size = true) : s.hostRead o size = s.readRegister o :=
  if_pos h

theorem State.hostRead_window (s : State) (h : windowAccess o size = true) :
    s.hostRead o size = some (BitVec.ofNat 64 (s.memRead (o - 0x1000) size)) := by
  rw [State.hostRead, registerAccess_eq_false_of_window h, h]
  rfl

theorem State.hostRead_badShape (s : State) (h : badShape o size) : s.hostRead o size = none := by
  obtain ⟨hreg, hwindow⟩ := badShape_iff.1 h
  rw [State.hostRead, hreg, hwindow]
  rfl

theorem State.hostWrite_window (s : State) (h : windowAccess o size = true) (v : Word64) :
    s.hostWrite o size v = some (.next (s.memWrite (o - 0x1000) size v.toNat)) := by
  rw [State.hostWrite, registerAccess_eq_false_of_window h, h]
  rfl

theorem State.hostWrite_badShape (s : State) (h : badShape o size) (v : Word64) : s.hostWrite o size v = none := by
  obtain ⟨hreg, hwindow⟩ := badShape_iff.1 h
  rw [State.hostWrite, hreg, hwindow]
  rfl

end

/-- A write of `CMD` issues the value (R63). -/
theorem State.hostWrite_cmd (s : State) (v : Word64) : s.hostWrite 0x000 8 v = some (issue v s) := rfl

/-- An operand register (R61). -/
theorem State.readRegister_reg (s : State) {o : Nat} (hlo : 0x200 ≤ o) (hhi : o < 0x280) :
    s.readRegister o = s.r[(o - 0x200) / 8]? := by
  simp (disch := omega) only [State.readRegister, if_neg, if_pos]

/-- Operand register `k` stands at `0x200 + 8 k` (R61). -/
theorem registerAccess_reg (k : Reg) : registerAccess (0x200 + 8 * k.val) 8 = true :=
  registerAccess_iff.2 (by omega)

theorem State.hostRead_reg (s : State) (k : Reg) : s.hostRead (0x200 + 8 * k.val) 8 = some s.r[k] := by
  rw [s.hostRead_register (registerAccess_reg k), s.readRegister_reg (by omega) (by omega), Nat.add_sub_cancel_left,
    Nat.mul_div_cancel_left _ (by decide), Vector.getElem?_eq_getElem k.isLt]
  rfl

theorem State.hostWrite_reg (s : State) (k : Reg) (v : Word64) :
    s.hostWrite (0x200 + 8 * k.val) 8 v = some (.next (s.setReg k v)) := by
  have hindex : Fin.ofNat 16 ((0x200 + 8 * k.val - 0x200) / 8) = k := by
    rw [Nat.add_sub_cancel_left, Nat.mul_div_cancel_left _ (by decide), Fin.ofNat_val_eq_self]
  rw [State.hostWrite, if_pos (registerAccess_reg k), if_neg (by omega), if_pos (by omega), hindex]

/-- Four registers fill the 32 bytes from their base on. -/
theorem fourRegs_eq_none_iff {v : Vector Word64 4} {base o : Nat} :
    fourRegs v base o = none ↔ o < base ∨ base + 0x20 ≤ o := by
  unfold fourRegs
  split
  · rw [Vector.getElem?_eq_none_iff]; omega
  · simp only [true_iff]; omega

theorem fourRegs_at (v : Vector Word64 4) (base : Nat) (a : Fin 4) : fourRegs v base (base + 8 * a.val) = some v[a] := by
  rw [fourRegs, if_pos (Nat.le_add_right ..), Nat.add_sub_cancel_left, Nat.mul_div_cancel_left _ (by decide),
    Vector.getElem?_eq_getElem a.isLt]
  rfl

/-- The registers of an axis stand 8 bytes apart, X first (R61). -/
theorem State.hostRead_axis (s : State) (a : Fin 4) :
    s.hostRead (0x060 + 8 * a.val) 8 = some s.pOff[a] ∧ s.hostRead (0x080 + 8 * a.val) 8 = some s.pScl[a] ∧
    s.hostRead (0x0E0 + 8 * a.val) 8 = some s.sOff[a] ∧ s.hostRead (0x100 + 8 * a.val) 8 = some s.sScl[a] := by
  refine ⟨?_, ?_, ?_, ?_⟩ <;> rw [s.hostRead_register (registerAccess_iff.2 (by omega))] <;>
    simp (disch := omega) only [State.readRegister, if_neg, if_pos, fourRegs_at]

/-- The aligned offsets below 0x1000 that no read may use: the reserved ones of R70, and `CMD` (R61). -/
theorem State.readRegister_eq_none_iff (s : State) {o : Nat} (hlow : o < 0x1000) (halign : o % 8 = 0) :
    s.readRegister o = none ↔ reservedOffset o ∨ o = 0x000 := by
  simp only [State.readRegister, ite_eq_iff, fourRegs_eq_none_iff, Vector.getElem?_eq_none_iff, reduceCtorEq, and_false,
    false_or, and_true, reservedOffset]
  omega

/-! Exactly the accesses of R68 are refused. -/

theorem reservedOffset_lt {o : Nat} (h : reservedOffset o) : o < 0x1000 := by
  unfold reservedOffset at h; omega

theorem State.hostRead_eq_none_iff (s : State) (o size : Nat) : s.hostRead o size = none ↔ refusedRead o size := by
  unfold refusedRead
  rcases access_shape_cases o size with hreg | hwindow | hbad
  · obtain ⟨hlow, -, halign⟩ := registerAccess_iff.1 hreg
    have hshape : ¬ badShape o size := by simp [badShape_iff, hreg]
    rw [s.hostRead_register hreg, s.readRegister_eq_none_iff hlow halign, or_iff_right hshape]
  · obtain ⟨hlow, -⟩ := windowAccess_iff.1 hwindow
    have hshape : ¬ badShape o size := by simp [badShape_iff, hwindow]
    have hreserved : ¬ reservedOffset o := fun h => absurd (reservedOffset_lt h) (by omega)
    have hcmd : o ≠ 0x000 := by omega
    simp [s.hostRead_window hwindow, hshape, hreserved, hcmd]
  · simp [s.hostRead_badShape hbad, hbad]

theorem State.hostWrite_eq_none_iff (s : State) (o size : Nat) (v : Word64) :
    s.hostWrite o size v = none ↔ refusedWrite o size := by
  unfold refusedWrite
  rcases access_shape_cases o size with hreg | hwindow | hbad
  · obtain ⟨hlow, -, -⟩ := registerAccess_iff.1 hreg
    have hshape : ¬ badShape o size := by simp [badShape_iff, hreg]
    rw [State.hostWrite, if_pos hreg, or_iff_right hshape]
    simp only [ite_eq_iff, reduceCtorEq, and_false, false_or, and_true, hlow, true_and, ne_eq]
  · obtain ⟨hlow, -⟩ := windowAccess_iff.1 hwindow
    have hshape : ¬ badShape o size := by simp [badShape_iff, hwindow]
    simp [s.hostWrite_window hwindow, hshape, hlow]
  · simp [s.hostWrite_badShape hbad, hbad]

/-! What the access leaves. -/

theorem hostAccess_read_of_some {s : State} {o : BitVec 13} {size : Nat} {v : Word64}
    (h : s.hostRead o.toNat size = some v) : hostAccess (.read o size) s = .next { s with rdata := v } := by
  simp only [hostAccess, h]

theorem hostAccess_read_of_none {s : State} {o : BitVec 13} {size : Nat} (h : s.hostRead o.toNat size = none) :
    hostAccess (.read o size) s = .next (({ s with rdata := 0 } : State).latch .bus (busInfo o false)) := by
  simp only [hostAccess, h]

theorem hostAccess_write_of_some {s : State} {o : BitVec 13} {size : Nat} {v : Word64} {result : Result}
    (h : s.hostWrite o.toNat size v = some result) : hostAccess (.write o size v) s = result := by
  simp only [hostAccess, h]

theorem hostAccess_write_of_none {s : State} {o : BitVec 13} {size : Nat} {v : Word64}
    (h : s.hostWrite o.toNat size v = none) :
    hostAccess (.write o size v) s = .next (s.latch .bus (busInfo o true)) := by
  simp only [hostAccess, h]

theorem toNat_bitOf (b : Bool) : (bitOf b).toNat = b.toNat := by cases b <;> rfl

/-- What `EINFO` records of a refused access: the offset, and above bit 32 the direction (R28). -/
theorem busInfo_eq (o : BitVec 13) (isWrite : Bool) :
    busInfo o isWrite = BitVec.ofNat 64 (isWrite.toNat * 2 ^ 32 + o.toNat) := by
  have ho := o.isLt
  have hbit := Bool.toNat_le isWrite
  apply BitVec.eq_of_toNat_eq
  rw [busInfo, toNat_append_eq_add, toNat_append_eq_add, toNat_bitOf, BitVec.ofNat_eq_ofNat, BitVec.toNat_zero,
    BitVec.toNat_setWidth, BitVec.toNat_ofNat]
  omega

end Sys2Proof.Machine
end

section
/-! CLAIM. Refused accesses (20_memory.md R68). -/

namespace Sys2Proof.Machine

/-- Settles O10: the refused accesses are those whose shape is bad and those whose aligned offset is not mapped for the
direction; the latch then takes `ERR_BUS` as it takes every error. -/
theorem refusedAccessesLatchBus : Obligations.RefusedAccessesLatchBus := by
  unfold Obligations.RefusedAccessesLatchBus
  intro s o size v
  refine ⟨s.hostRead_eq_none_iff .., s.hostWrite_eq_none_iff .., fun hread => ?_, fun hwrite => ?_⟩
  · rw [hostAccess_read_of_none ((s.hostRead_eq_none_iff ..).2 hread), busInfo_eq, Bool.toNat_false, Nat.zero_mul,
      Nat.zero_add]
    rfl
  · rw [hostAccess_write_of_none ((s.hostWrite_eq_none_iff ..).2 hwrite), busInfo_eq, Bool.toNat_true, Nat.one_mul]
    rfl

end Sys2Proof.Machine
end

section
/-! SUPPORT. The buffer memory byte by byte (20_memory.md R65 to R67). -/

namespace Sys2Proof.Machine

/-- The number that bytes spell is their sum, each at its place (R65). -/
theorem natOfBytes_map_range (f : Nat → Byte) (n : Nat) :
    natOfBytes ((List.range n).map f) = ((List.range n).map fun k => (f k).toNat * 2 ^ (8 * k)).sum := by
  induction n generalizing f with
  | zero => rfl
  | succ n ih =>
    have hshift (k : Nat) : (f (k + 1)).toNat * 2 ^ (8 * (k + 1)) = 256 * ((f (k + 1)).toNat * 2 ^ (8 * k)) := by ring
    simp only [List.range_succ_eq_map, List.map_cons, List.map_map, Function.comp_def, List.sum_cons, natOfBytes,
      Nat.succ_eq_add_one, ih fun k => f (k + 1), hshift, List.sum_map_mul_left, Nat.mul_zero, pow_zero, Nat.mul_one]

/-- Byte `k` of a value (R65). -/
theorem getElem_bytesLE {n k : Nat} (v : Nat) (h : k < (bytesLE n v).length) :
    (bytesLE n v)[k] = BitVec.ofNat 8 (v / 2 ^ (8 * k)) := by
  induction n generalizing v k with
  | zero => exact absurd h (Nat.not_lt_zero k)
  | succ n ih =>
    cases k with
    | zero => simp [bytesLE]
    | succ k =>
      have hplace : 2 ^ (8 * (k + 1)) = 256 * 2 ^ (8 * k) := by ring
      simp [bytesLE, ih, hplace, Nat.div_div_eq_div_mul]

namespace State

variable (s : State)

theorem memRead_one (addr : Nat) : s.memRead addr 1 = (s.bufRead addr).toNat := by
  simp [memRead, natOfBytes]

/-- A byte that `MemWrite` writes (R67). -/
theorem bufRead_memWrite {addr n k : Nat} (v : Nat) (h : k < n) :
    (s.memWrite addr n v).bufRead (addr + k) = BitVec.ofNat 8 (v / 2 ^ (8 * k)) := by
  rw [memWrite, bufRead_storeBytes, dif_pos (by rw [bytesLE_length]; omega), getElem_bytesLE]
  rw [Nat.add_sub_cancel_left]

/-- `MemWrite` leaves the bytes outside its range as they were (R67). -/
theorem bufRead_memWrite_of_outside {addr n a : Nat} (v : Nat) (h : a < addr ∨ addr + n ≤ a) :
    (s.memWrite addr n v).bufRead a = s.bufRead a := by
  rw [memWrite, bufRead_storeBytes, dif_neg (by rw [bytesLE_length]; omega)]

/-- A host read of one byte of the window (R64). -/
theorem hostRead_byte {o : Nat} (h : 0x1000 ≤ o) : s.hostRead o 1 = some ((s.bufRead (o - 0x1000)).setWidth 64) := by
  rw [hostRead_window _ (windowAccess_iff.2 ⟨h, .inl rfl, Nat.mod_one o⟩), memRead_one, BitVec.ofNat_toNat]

end State

end Sys2Proof.Machine
end

section
/-! CLAIM. The buffer is little-endian (20_memory.md R66, R67). -/

namespace Sys2Proof.Machine

/-- Settles O11: byte by byte, by induction on the number of bytes read or written; a legal host access is one `MemRead` or
`MemWrite`. -/
theorem bufferIsLittleEndian : Obligations.BufferIsLittleEndian := by
  unfold Obligations.BufferIsLittleEndian
  refine ⟨fun s addr n => ⟨natOfBytes_map_range _ n, fun v => ⟨fun k hk => ?written, fun a ha => ?outside, ?frame⟩⟩,
    fun s o size v hlow hsize halign => ?host⟩
  case written => rw [s.bufRead_memWrite v hk, BitVec.toNat_ofNat]
  case outside => exact s.bufRead_memWrite_of_outside v ha
  case frame => exact ⟨_, rfl⟩
  case host =>
    have hwindow := windowAccess_iff.2 ⟨hlow, hsize, halign⟩
    refine ⟨s.hostRead_window hwindow, hostAccess_write_of_some (s.hostWrite_window hwindow v), fun k hk => ?_⟩
    rw [State.hostRead_byte _ (by omega), Nat.sub_add_comm hlow, s.bufRead_memWrite _ hk, ← BitVec.ofNat_toNat,
      BitVec.toNat_ofNat]

end Sys2Proof.Machine
end

section
/-! CLAIM. The register map (20_memory.md R61, R62). -/

namespace Sys2Proof.Machine

/-- `ERR` is 1 exactly while an error is latched (R27). -/
theorem State.toNat_err (s : State) : s.err.toNat = if s.ecode = 0 then 0 else 1 := by
  split
  case isTrue h => rw [State.err, h]; rfl
  case isFalse h => rw [State.err, bne_iff_ne.2 h]; rfl

/-- The fields of `STATUS` in their places (R27). -/
theorem State.status_toNat (s : State) : s.status.toNat = s.seeded.toNat + 2 * s.pbuilt.toNat + 4 * s.sbuilt.toNat
    + 8 * (if s.ecode = 0 then 0 else 1) + 256 * s.ecode.toNat := by
  simp only [State.status, toNat_append_eq_add, toNat_bitOf, BitVec.ofNat_eq_ofNat, BitVec.toNat_zero, s.toNat_err]
  omega

/-- Settles O9: each row by evaluation at its offset, the arrays by their index, and what is not mapped by the refused
accesses of R68. -/
theorem hostSeesTheRegisterMap : Obligations.HostSeesTheRegisterMap := by
  unfold Obligations.HostSeesTheRegisterMap
  intro s
  refine ⟨⟨rfl, s.status_toNat⟩, rfl, rfl, rfl, rfl, rfl, rfl, rfl, rfl, s.hostRead_axis,
    fun k v => ⟨s.hostRead_reg k, s.hostWrite_reg k v⟩, fun a ha => ⟨?byteRead, fun v => ?byteWrite⟩, rfl,
    s.hostWrite_cmd, fun o v hlow hcmd hreg => (s.hostWrite_eq_none_iff ..).2 (.inr ⟨hlow, hcmd, hreg⟩),
    fun o ho => (s.hostRead_eq_none_iff ..).2 (.inr (.inl ho)), fun o size v h => hostAccess_read_of_some h⟩
  case byteRead => rw [s.hostRead_byte (by omega), Nat.add_sub_cancel_left]
  case byteWrite =>
    rw [s.hostWrite_window (windowAccess_iff.2 ⟨by omega, .inl rfl, Nat.mod_one _⟩), Nat.add_sub_cancel_left]

end Sys2Proof.Machine
end

section
/-! SUPPORT. The decoder reads every command back from its word (30_encoding.md R95, R96). -/

namespace Sys2Proof

/-- Every command has its row of the table, and keeps the must-be-zero bits of its format 0 (R91, R95). -/
theorem wordShape_holds (i : Instr) : Laws.WordShape.Statement i := by
  cases i with
  | poff ra axis => exact Laws.WordShape.poff ra axis
  | pscl ra axis => exact Laws.WordShape.pscl ra axis
  | soff ra axis => exact Laws.WordShape.soff ra axis
  | sscl ra axis => exact Laws.WordShape.sscl ra axis
  | _ => exact ⟨_, rfl, by rw [splitWord_encode]; rfl⟩

/-- The operand fields of a command give the command back (R95). -/
theorem commandOf_fields (i : Instr) : commandOf i.fields = some i := by
  cases i with
  | poff ra axis => exact congrArg (fun axis => some (Instr.poff ra axis)) (axisOfImm_immOfAxis axis)
  | pscl ra axis => exact congrArg (fun axis => some (Instr.pscl ra axis)) (axisOfImm_immOfAxis axis)
  | soff ra axis => exact congrArg (fun axis => some (Instr.soff ra axis)) (axisOfImm_immOfAxis axis)
  | sscl ra axis => exact congrArg (fun axis => some (Instr.sscl ra axis)) (axisOfImm_immOfAxis axis)
  | _ => rfl

theorem decode_encode {i : Instr} (h : i.wellFormed = true) : decode (encode i) = .ok i := by
  obtain ⟨fmt, hfmt, hzero⟩ := wordShape_holds i
  rw [splitWord_encode] at hzero
  simp only [decode, decodeFields, splitWord_encode, hfmt, commandOf_fields, hzero, h, if_true]

/-- A word written to `CMD` with its upper half 0 decodes as the word (R96). -/
theorem decodeCommand_setWidth (w : Word32) : decodeCommand (w.setWidth 64) = decode w := by
  have hupper : (w.setWidth 64).extractLsb' 32 32 = 0 := by ext k hk; simp
  rw [decodeCommand, if_pos hupper, BitVec.setWidth_setWidth_of_le _ (by decide), BitVec.setWidth_eq]

end Sys2Proof
end

section
/-! CLAIM. A step runs the command that the host writes next (10_state.md R20, 20_memory.md R63). -/

namespace Sys2Proof.Machine

variable {s : State} {v : Word64} {i : Instr} {rest : List HostAccess}

/-- A step takes the access at the head of the port. -/
theorem step_of_port {a : HostAccess} (h : s.port = a :: rest) : step s = hostAccess a { s with port := rest } := by
  simp only [step, State.takeAccess, h, List.tail_cons]

/-- With no error latched, a step that takes a command's write runs the command. -/
theorem step_of_command (hport : s.port = .write 0x000 8 v :: rest) (hclear : s.ecode = 0)
    (hdecode : decodeCommand v = .ok i) : step s = exec i { s with port := rest } := by
  have hissue : issue v { s with port := rest } = exec i { s with port := rest } := by
    rw [issue_of_clear (s := { s with port := rest }) hclear, hdecode]
  rw [step_of_port hport, ← hissue]
  exact hostAccess_write_of_some (State.hostWrite_cmd _ v)

theorem withFetchWord_port (s : State) (w : Word32) :
    (s.withFetchWord 32 w.toNat).port = .write 0x000 8 (w.setWidth 64) :: s.port := by
  rw [State.withFetchWord, Nat.mod_eq_of_lt w.isLt, BitVec.ofNat_toNat]

/-- Settles O8: the decoder reads the command back from the write, and the port has then taken the write. -/
theorem stepRunsTheDecodedCommand : Obligations.StepRunsTheDecodedCommand := by
  unfold Obligations.StepRunsTheDecodedCommand
  refine ⟨fun s v rest i => step_of_command, fun s i hclear hwf => ?fetched, fun s a rest => step_of_port,
    fun s hidle => ?idle⟩
  case fetched =>
    exact step_of_command (withFetchWord_port s _) hclear (by rw [decodeCommand_setWidth, decode_encode hwf])
  case idle => simp only [step, hidle]

end Sys2Proof.Machine
end

section
/-! SUPPORT. The rows of the opcode table R95 and the must-be-zero bits of R91, and from them what the decoder answers (R96). -/

namespace Sys2Proof

variable {f : Fields} {fmt : Format} {i : Instr} {w : Word32}

/-! The axis immediate: its two low bits name the axis (R93), its ten high bits must be 0 (R91). -/

theorem immOfAxis_axisOfImm (imm : BitVec 12) : immOfAxis (axisOfImm imm) = (0 : BitVec 10) ++ imm.extractLsb' 0 2 := by
  unfold axisOfImm
  generalize imm.extractLsb' 0 2 = axis
  revert axis
  decide

theorem immOfAxis_axisOfImm_of_high {imm : BitVec 12} (h : imm.extractLsb' 2 10 = 0) : immOfAxis (axisOfImm imm) = imm := by
  rw [immOfAxis_axisOfImm, ← h]
  exact BitVec.extractLsb'_append_extractLsb' (w := 10) (len := 2)

theorem imm_high_eq_zero_iff (imm : BitVec 12) : imm &&& 0xFFC#12 = 0#12 ↔ imm.extractLsb' 2 10 = 0#10 := by
  have hparts : imm &&& 0xFFC#12 = imm.extractLsb' 2 10 ++ (0 : BitVec 2) := by
    calc imm &&& 0xFFC#12
        = (imm.extractLsb' 2 10 ++ imm.extractLsb' 0 2) &&& (BitVec.allOnes 10 ++ (0 : BitVec 2)) :=
          congrArg (· &&& 0xFFC#12) (BitVec.extractLsb'_append_extractLsb' (w := 10) (len := 2)).symm
      _ = imm.extractLsb' 2 10 ++ (0 : BitVec 2) := by
          rw [BitVec.and_append, BitVec.and_allOnes]
          exact congrArg _ BitVec.and_zero
  rw [hparts]
  exact BitVec.append_left_inj (s₂ := 0) 0

/-! The fields that a format uses (R91). -/

/-- The fields that a command of the format carries: every field the format does not use is 0 (R91). -/
def Format.used (fmt : Format) (f : Fields) : Fields :=
  match fmt with
  | .z   => ⟨f.op, 0, 0, 0, 0⟩
  | .a   => ⟨f.op, 0, f.ra, 0, 0⟩
  | .d   => ⟨f.op, f.rd, 0, 0, 0⟩
  | .da  => ⟨f.op, f.rd, f.ra, 0, 0⟩
  | .dab => ⟨f.op, f.rd, f.ra, f.rb, 0⟩
  | .ai  => ⟨f.op, 0, f.ra, 0, immOfAxis (axisOfImm f.imm)⟩
  | .dai => ⟨f.op, f.rd, f.ra, 0, f.imm⟩

theorem Format.used_of_unusedZero (h : fmt.unusedZero f = true) : fmt.used f = f := by
  obtain ⟨op, rd, ra, rb, imm⟩ := f
  cases fmt with
  | ai =>
    simp only [unusedZero, Bool.and_eq_true, beq_iff_eq] at h
    obtain ⟨⟨hrd, hrb⟩, hhigh⟩ := h
    simp only [used, hrd, hrb, immOfAxis_axisOfImm_of_high hhigh]
  | _ =>
    simp only [unusedZero, Bool.and_eq_true, beq_iff_eq] at h
    simp only [used, h]

theorem eq_ofNat_of_toNat_eq {op : BitVec 8} {n : Nat} (h : op.toNat = n) : op = BitVec.ofNat 8 n := by
  rw [← h, BitVec.ofNat_toNat, BitVec.setWidth_eq]

/-- The table gives an opcode a command exactly when it gives it a format (R95). -/
theorem commandOf_isSome (f : Fields) : (commandOf f).isSome = (formatOf f.op).isSome := by
  unfold commandOf formatOf
  split <;> rfl

/-- Each row of the table puts into the command the fields that the row's format uses (R95). -/
theorem fields_of_commandOf (hfmt : formatOf f.op = some fmt) (hi : commandOf f = some i) : i.fields = fmt.used f := by
  obtain ⟨op, rd, ra, rb, imm⟩ := f
  unfold commandOf at hi
  split at hi <;> rename_i hop
  case h_55 => contradiction
  all_goals
    obtain rfl := eq_ofNat_of_toNat_eq (op := op) hop
    cases hfmt
    cases hi
    rfl

/-! The decoder's answer by cases (R96). -/

/-- What the decoder answers for an opcode with a row of the table: steps 3 to 5 (R96). -/
theorem decode_of_row (hfmt : formatOf (splitWord w).op = some fmt) (hi : commandOf (splitWord w) = some i) :
    decode w = if fmt.unusedZero (splitWord w) then (if i.wellFormed then .ok i else .error .pastR15)
      else .error .unusedBits := by
  simp only [decode, decodeFields, hfmt, hi]

theorem exists_commandOf_of_formatOf (hfmt : formatOf f.op = some fmt) : ∃ i, commandOf f = some i := by
  rw [← Option.isSome_iff_exists, commandOf_isSome, hfmt, Option.isSome_some]

/-- Step 2 rejects exactly the opcodes without a row of the table (R96, R97). -/
theorem decode_eq_reservedOpcode_iff (w : Word32) :
    decode w = .error .reservedOpcode ↔ formatOf (splitWord w).op = none := by
  cases hfmt : formatOf (splitWord w).op with
  | none => simp only [decode, decodeFields, hfmt]
  | some fmt =>
    obtain ⟨i, hi⟩ := exists_commandOf_of_formatOf hfmt
    rw [decode_of_row hfmt hi]
    split_ifs <;> simp

/-- A word that decodes has the shape of its opcode's format, and its command keeps R92 (R98). -/
theorem row_of_decode_eq_ok (h : decode w = .ok i) : ∃ fmt, formatOf (splitWord w).op = some fmt ∧
    commandOf (splitWord w) = some i ∧ fmt.unusedZero (splitWord w) = true ∧ i.wellFormed = true := by
  cases hfmt : formatOf (splitWord w).op with
  | none => rw [(decode_eq_reservedOpcode_iff w).mpr hfmt] at h; contradiction
  | some fmt =>
    obtain ⟨j, hj⟩ := exists_commandOf_of_formatOf hfmt
    rw [decode_of_row hfmt hj] at h
    split_ifs at h with hzero hwf
    cases h
    exact ⟨fmt, rfl, hj, hzero, hwf⟩

/-- The word of a command that breaks R92 is rejected at step 4 (R96). -/
theorem decode_encode_of_illFormed (h : i.wellFormed = false) : decode (encode i) = .error .pastR15 := by
  obtain ⟨fmt, hfmt, hzero⟩ := wordShape_holds i
  rw [← splitWord_encode] at hfmt
  rw [decode_of_row hfmt (by rw [splitWord_encode, commandOf_fields]), if_pos hzero, h, if_neg Bool.false_ne_true]

end Sys2Proof
end

section
/-! CLAIM. Encoding and decoding are inverse to each other on the commands that keep R92 (30_encoding.md R96, R98). -/

namespace Sys2Proof

/-- Settles O1: by `decode_encode`, the row of the command's opcode is read back from its word. -/
theorem decodeOfEncodeIsTheCommand : Obligations.DecodeOfEncodeIsTheCommand := by
  unfold Obligations.DecodeOfEncodeIsTheCommand
  exact fun i hwf => decode_encode hwf

/-- Settles O2: the command carries the used fields of the word, and the word's other fields are 0. -/
theorem decodedWordIsTheCommandsWord : Obligations.DecodedWordIsTheCommandsWord := by
  unfold Obligations.DecodedWordIsTheCommandsWord
  intro w i h
  obtain ⟨fmt, hfmt, hi, hzero, hwf⟩ := row_of_decode_eq_ok h
  have hfields : i.fields = splitWord w := (fields_of_commandOf hfmt hi).trans (Format.used_of_unusedZero hzero)
  exact ⟨by rw [encode, hfields, joinFields_splitWord], hwf⟩

end Sys2Proof
end

section
/-! CLAIM. The mask of a format is its must-be-zero bits under the opcode (30_encoding.md R91). -/

namespace Sys2Proof

/-- The mask of a format, field by field: all ones where the field is fixed (R91). -/
def Format.maskFields : Format → Fields
  | .z   => ⟨.allOnes 8, .allOnes 4, .allOnes 4, .allOnes 4, .allOnes 12⟩
  | .a   => ⟨.allOnes 8, .allOnes 4, 0, .allOnes 4, .allOnes 12⟩
  | .d   => ⟨.allOnes 8, 0, .allOnes 4, .allOnes 4, .allOnes 12⟩
  | .da  => ⟨.allOnes 8, 0, 0, .allOnes 4, .allOnes 12⟩
  | .dab => ⟨.allOnes 8, 0, 0, 0, .allOnes 12⟩
  | .ai  => ⟨.allOnes 8, .allOnes 4, 0, .allOnes 4, 0xFFC⟩
  | .dai => ⟨.allOnes 8, 0, 0, .allOnes 4, 0⟩

theorem splitWord_mask (fmt : Format) : splitWord fmt.mask = fmt.maskFields := by
  cases fmt <;> rfl

theorem splitWord_and (w v : Word32) : splitWord (w &&& v) =
    ⟨(splitWord w).op &&& (splitWord v).op, (splitWord w).rd &&& (splitWord v).rd, (splitWord w).ra &&& (splitWord v).ra,
      (splitWord w).rb &&& (splitWord v).rb, (splitWord w).imm &&& (splitWord v).imm⟩ := by
  simp only [splitWord, BitVec.extractLsb'_and]

theorem splitWord_opcode (o : BitVec 8) : splitWord (o.setWidth 32 <<< 24) = ⟨o, 0, 0, 0, 0⟩ := by
  have hjoin : o.setWidth 32 <<< 24 = joinFields ⟨o, 0, 0, 0, 0⟩ := by
    ext k hk
    simp only [joinFields]
    grind
  rw [hjoin, splitWord_joinFields]

/-- Masking keeps the opcode and the must-be-zero bits of a word (R91). -/
theorem and_mask_eq_iff (fmt : Format) (w : Word32) (o : BitVec 8) :
    w &&& fmt.mask = o.setWidth 32 <<< 24 ↔ (splitWord w).op = o ∧ fmt.unusedZero (splitWord w) = true := by
  have hsplit : w &&& fmt.mask = o.setWidth 32 <<< 24 ↔ splitWord (w &&& fmt.mask) = splitWord (o.setWidth 32 <<< 24) :=
    ⟨congrArg splitWord, splitWord_injective⟩
  rw [hsplit, splitWord_and, splitWord_mask, splitWord_opcode, Fields.mk.injEq]
  cases fmt with
  | ai =>
    simp only [Format.maskFields, Format.unusedZero, BitVec.and_allOnes, BitVec.ofNat_eq_ofNat, BitVec.and_zero, true_and,
      imm_high_eq_zero_iff, Bool.and_eq_true, beq_iff_eq, and_assoc]
  | _ =>
    simp only [Format.maskFields, Format.unusedZero, BitVec.and_allOnes, BitVec.ofNat_eq_ofNat, BitVec.and_zero, true_and,
      and_true, Bool.and_eq_true, beq_iff_eq, and_assoc]

/-- Settles O3: by `and_mask_eq_iff`, a word that the mask rejects has a must-be-zero bit set. -/
theorem maskDecidesTheShape : Obligations.MaskDecidesTheShape := by
  unfold Obligations.MaskDecidesTheShape
  refine ⟨⟨rfl, rfl, rfl, rfl, rfl, rfl, rfl⟩, fun fmt w o => ⟨and_mask_eq_iff fmt w o, fun hfmt hop hmask => ?_⟩⟩
  subst hop
  obtain ⟨i, hi⟩ := exists_commandOf_of_formatOf hfmt
  rw [decode_of_row hfmt hi, if_neg fun hzero => hmask ((and_mask_eq_iff fmt w _).mpr ⟨rfl, hzero⟩)]

end Sys2Proof
end

section
/-! CLAIM. The reserved opcodes (30_encoding.md R97). -/

namespace Sys2Proof

/-- The opcodes without a row of the table, in the ranges that R97 lists. -/
theorem formatOf_eq_none_iff (op : BitVec 8) : formatOf op = none ↔
    (0x02 ≤ op.toNat ∧ op.toNat ≤ 0x0F) ∨ (0x16 ≤ op.toNat ∧ op.toNat ≤ 0x1F) ∨ (0x2C ≤ op.toNat ∧ op.toNat ≤ 0x2F) ∨
      op.toNat = 0x33 ∨ op.toNat = 0x37 ∨ op.toNat = 0x3B ∨ op.toNat = 0x3F ∨ (0x42 ≤ op.toNat ∧ op.toNat ≤ 0x4F) ∨
      op.toNat = 0x56 ∨ op.toNat = 0x57 ∨ (0x5C ≤ op.toNat ∧ op.toNat ≤ 0x5F) ∨
      op.toNat = 0x66 ∨ op.toNat = 0x67 ∨ op.toNat = 0x68 ∨ (0x6D ≤ op.toNat ∧ op.toNat ≤ 0xFF) := by
  revert op
  decide

theorem splitWord_op_toNat (w : Word32) : (splitWord w).op.toNat = (w >>> 24).toNat := by
  have hlt : (w >>> 24).toNat < 2 ^ 8 := by rw [BitVec.toNat_ushiftRight, Nat.shiftRight_eq_div_pow]; omega
  rw [splitWord, BitVec.extractLsb'_toNat, ← BitVec.toNat_ushiftRight, Nat.mod_eq_of_lt hlt]

/-- Settles O4: the words rejected as reserved are those whose opcode has no row in the table. -/
theorem reservedOpcodesAreRejected : Obligations.ReservedOpcodesAreRejected := by
  unfold Obligations.ReservedOpcodesAreRejected
  intro w
  rw [decode_eq_reservedOpcode_iff, formatOf_eq_none_iff, splitWord_op_toNat]

end Sys2Proof
end

section
/-! CLAIM. Pairs and groups of registers (30_encoding.md R92). -/

namespace Sys2Proof.Machine

theorem State.reg_ofNat (s : State) {k : Nat} (h : k < 16) : s.reg (Fin.ofNat 16 k) = s.r[k] := by
  simp only [State.reg, Fin.ofNat, Nat.mod_eq_of_lt h, Fin.getElem_fin]

theorem ofNat_add_ofNat (k j : Nat) : Fin.ofNat 16 k + Fin.ofNat 16 j = Fin.ofNat 16 (k + j) := by
  rw [Fin.ofNat_add]
  exact Fin.ext (Nat.add_mod_mod k j 16)

/-- A pair is the low register under the high one (R92 a, R13). -/
theorem State.regQ_ofNat (s : State) {k : Nat} (h : k + 1 < 16) :
    s.regQ (Fin.ofNat 16 k) = s.r[k + 1].toInt * 2 ^ 64 + (s.r[k].toNat : Int) := by
  have hnext : s.reg (Fin.ofNat 16 k + 1) = s.r[k + 1] := by
    rw [← s.reg_ofNat h, ← ofNat_add_ofNat]
    rfl
  rw [State.regQ, hnext, s.reg_ofNat (by omega), BitVec.toInt_append, mul_comm]
  rfl

/-- A group is the registers that follow each other (R92 b). -/
theorem State.group_getElem? (s : State) {k n j : Nat} (h : k + n ≤ 16) (hj : j < n) :
    (s.group (Fin.ofNat 16 k) n)[j]? = some (fOfBits s.r[k + j]) := by
  rw [State.group, List.getElem?_map, List.getElem?_range hj, Option.map_some, State.regF, ofNat_add_ofNat, State.reg_ofNat]

theorem pairOk_iff (k : Reg) : pairOk k = true ↔ k.val ≤ 14 := decide_eq_true_iff

theorem groupOk_iff (ra : Reg) (n : Nat) : groupOk ra n = true ↔ ra.val + n - 1 ≤ 15 := by
  rw [groupOk, decide_eq_true_iff]
  omega

/-- Settles O5: the registers of a pair and of a group by their numbers, and the ill-formed words by the decoder's step 4. -/
theorem pairsAndGroupsStayBelowR16 : Obligations.PairsAndGroupsStayBelowR16 := by
  unfold Obligations.PairsAndGroupsStayBelowR16
  refine ⟨fun s k => s.regQ_ofNat, fun s k n j => s.group_getElem?, fun rd ra rb => ?fields,
    fun i => decode_encode_of_illFormed⟩
  case fields =>
    simp only [Instr.wellFormed, Bool.and_eq_true, pairOk_iff, groupOk_iff, and_assoc, List.forall_mem_cons,
      List.not_mem_nil, false_implies, implies_true, and_self]

end Sys2Proof.Machine
end

section
/-! CLAIM. Words of the spec's examples (30_encoding.md section 4, 95_test_vectors.md V22). -/

namespace Sys2Proof

/-- Settles O7: the decoder evaluates on each of the words. -/
theorem wordsOfTheSpecDecode : Obligations.WordsOfTheSpecDecode := by
  unfold Obligations.WordsOfTheSpecDecode
  exact ⟨rfl, rfl, rfl, rfl, rfl, rfl, rfl, rfl, rfl, rfl, rfl, rfl, fun rd ra => ⟨rfl, rfl⟩⟩

end Sys2Proof
end

section
/-! SUPPORT. A command's word has the format of its opcode (30_encoding.md R91, R95). -/

namespace Sys2Proof.Machine

theorem hasEncoding_of_formatOf {i : Instr} {fmt : Format} (h : formatOf i.fields.op = some fmt) :
    hasEncoding i i.fields.op fmt := by
  obtain ⟨fmt', hfmt, hzero⟩ := wordShape_holds i
  obtain rfl : fmt = fmt' := Option.some.inj (h.symm.trans hfmt)
  exact ⟨h, (and_mask_eq_iff fmt _ _).mpr ⟨congrArg Fields.op (splitWord_encode i), hzero⟩⟩

end Sys2Proof.Machine
end

section
/-! SUPPORT. Where a check passes and where it fails (60_exceptions.md R303). -/

namespace Sys2Proof.Machine

variable {ok : Bool} {e : Err} {i : Instr} {s : State} {k : State → Result}

theorem check_of_true (h : ok = true) : check ok e i s k = k s := by rw [h, check_true]

theorem check_of_false (h : ok = false) : check ok e i s k = .next (s.raise e i) := by rw [h, check_false]

end Sys2Proof.Machine
end

section
/-! SUPPORT. Loops that go once through the indices of a register in ascending order and replace one word each (40_wordgen.md
R120, R123). -/

namespace Sys2Proof.Machine

section
variable {α : Type} {n : Nat} {step : Vector α n → Fin n → Vector α n}
  (hstep : ∀ (v : Vector α n) (i j : Fin n), j ≠ i → (step v i)[j] = v[j])
include hstep

theorem getElem_foldl_of_notMem {l : List (Fin n)} {j : Fin n} (hj : j ∉ l) (v : Vector α n) : (l.foldl step v)[j] = v[j] := by
  induction l generalizing v with
  | nil => rfl
  | cons i l ih =>
    obtain ⟨hi, hl⟩ := List.ne_and_not_mem_of_not_mem_cons hj
    rw [List.foldl_cons, ih hl, hstep v i j hi]

/-- Iteration `i` finds the new words below `i` and the old words from `i` on, and the word it puts at `i` stays. -/
theorem exists_before_iteration {v r : Vector α n} (hr : (List.finRange n).foldl step v = r) (i : Fin n) :
    ∃ m : Vector α n, (∀ j < i, m[j] = r[j]) ∧ (∀ j, i ≤ j → m[j] = v[j]) ∧ r[i] = (step m i)[i] := by
  have hlen : i.val < (List.finRange n).length := by rw [List.length_finRange]; exact i.isLt
  have hsplit : List.finRange n = (List.finRange n).take i ++ i :: (List.finRange n).drop (i + 1) := by
    conv_lhs => rw [← List.take_append_drop i (List.finRange n), List.drop_eq_getElem_cons hlen, List.getElem_finRange]
    rfl
  have hbelow {j : Fin n} (hj : i ≤ j) : j ∉ (List.finRange n).take i := fun hmem => by
    obtain ⟨k, hk, rfl⟩ := List.mem_take_iff_getElem.mp hmem
    rw [List.getElem_finRange] at hj
    have hle : i.val ≤ k := hj
    omega
  have habove {j : Fin n} (hj : j ≤ i) : j ∉ (List.finRange n).drop (i + 1) := fun hmem => by
    obtain ⟨k, hk, rfl⟩ := List.mem_drop_iff_getElem.mp hmem
    rw [List.getElem_finRange] at hj
    have hle : i.val + 1 + k ≤ i.val := hj
    omega
  have hfinal {j : Fin n} (hj : j ≤ i) : r[j] =
      (step (((List.finRange n).take i).foldl step v) i)[j] := by
    rw [← hr]
    conv_lhs => rw [hsplit, List.foldl_append, List.foldl_cons]
    exact getElem_foldl_of_notMem hstep (habove hj) _
  refine ⟨((List.finRange n).take i).foldl step v, fun j hj => ?_, fun j hj => ?_, hfinal le_rfl⟩
  · rw [hfinal hj.le, hstep _ i j hj.ne]
  · exact getElem_foldl_of_notMem hstep (hbelow hj) v

end

end Sys2Proof.Machine
end

section
/-! CLAIM. Seeding from one word (40_wordgen.md R120, R121). -/

namespace Sys2Proof.Machine

theorem State.seedWith_eq (s : State) (g : Gen) : s.seedWith g = { s with gen := g, seeded := true } := rfl

theorem exec_seed (ra : Reg) (s : State) : exec (.seed ra) s = .next (s.seedWith (initState (s.reg ra))) := rfl

theorem fin_succ_sub_one {i : Nat} (h : i + 1 < 312) : ((⟨i + 1, h⟩ : Fin 312) - 1).val = i := by
  have hne : (⟨i + 1, h⟩ : Fin 312) ≠ 0 := fun he => Nat.succ_ne_zero i (congrArg Fin.val he)
  rw [Fin.sub_val_of_le (Fin.one_le_of_ne_zero hne)]
  rfl

/-- One iteration of the seeding loop; the first one leaves word 0, the seed. -/
def initStep (mt : Vector Word64 312) (i : Fin 312) : Vector Word64 312 :=
  if i = 0 then mt else mt.set i (initWord mt[i - 1] i)

theorem foldl_initStep (v : Word64) : (List.finRange 312).foldl initStep (Vector.replicate 312 v) = (initState v).mt := by
  simp only [initState, initRegister]
  rfl

theorem initStep_getElem_of_ne (mt : Vector Word64 312) (i j : Fin 312) (h : j ≠ i) : (initStep mt i)[j] = mt[j] := by
  unfold initStep
  split
  · rfl
  · exact Vector.getElem_set_ne i.isLt j.isLt fun he => h (Fin.ext he.symm)

theorem initStep_getElem_succ (mt : Vector Word64 312) {i : Nat} (h : i + 1 < 312) :
    (initStep mt ⟨i + 1, h⟩)[i + 1] = initWord mt[i] ⟨i + 1, h⟩ := by
  have hne : (⟨i + 1, h⟩ : Fin 312) ≠ 0 := fun he => Nat.succ_ne_zero i (congrArg Fin.val he)
  simp only [initStep, if_neg hne, Vector.getElem_set_self, Fin.getElem_fin, fin_succ_sub_one h]

theorem initState_getElem_zero (v : Word64) : (initState v).mt[0] = v := by
  obtain ⟨m, -, hold, hnew⟩ := exists_before_iteration initStep_getElem_of_ne (foldl_initStep v) 0
  calc (initState v).mt[0] = m[0] := hnew
    _ = v := (hold 0 le_rfl).trans (Vector.getElem_replicate _)

theorem initState_getElem_succ (v : Word64) {i : Nat} (h : i + 1 < 312) : (initState v).mt[i + 1] =
    Config.gen.initMul * ((initState v).mt[i] ^^^ ((initState v).mt[i] >>> 62)) + BitVec.ofNat 64 (i + 1) := by
  obtain ⟨m, hbelow, -, hnew⟩ :=
    exists_before_iteration initStep_getElem_of_ne (foldl_initStep v) ⟨i + 1, h⟩
  have hprev : m[i] = (initState v).mt[i] := hbelow ⟨i, by omega⟩ (Nat.lt_succ_self i)
  calc (initState v).mt[i + 1] = initWord m[i] ⟨i + 1, h⟩ := hnew.trans (initStep_getElem_succ m h)
    _ = _ := by rw [hprev]; rfl

/-- Settles O20: each word of the seeding loop is made from the final word before it. -/
theorem seedRunsTheRecurrence : Obligations.SeedRunsTheRecurrence := by
  unfold Obligations.SeedRunsTheRecurrence
  exact ⟨fun ra => hasEncoding_of_formatOf rfl, fun ra s => by rw [exec_seed, State.seedWith_eq],
    fun v => ⟨rfl, initState_getElem_zero v, fun i => initState_getElem_succ v⟩,
    by decide +kernel, by decide +kernel, by decide +kernel⟩

end Sys2Proof.Machine
end

section
/-! CLAIM. Regenerating the register and drawing the next word (40_wordgen.md R123, R124). -/

namespace Sys2Proof.Machine

theorem magicWord_eq (x : Word64) : magicWord x = if x &&& 1 = 0 then Config.gen.mag0 else Config.gen.mag1 := by
  have hbit : x.getLsbD 0 = false ↔ x &&& 1 = 0 := by
    rw [← BitVec.toNat_inj, BitVec.toNat_and, BitVec.getLsbD, Nat.testBit_zero, decide_eq_false_iff_not]
    show _ ↔ x.toNat &&& 1 = 0
    rw [Nat.and_one_is_mod]
    omega
  unfold magicWord
  by_cases h : x &&& 1 = 0
  · rw [if_pos h, hbit.mpr h]; rfl
  · rw [if_neg h, Bool.of_not_eq_false (mt hbit.mp h)]; rfl

theorem twistAt_getElem_of_ne (mt : Vector Word64 312) (i j : Fin 312) (h : j ≠ i) : (twistAt mt i)[j] = mt[j] :=
  Vector.getElem_set_ne i.isLt j.isLt fun he => h (Fin.ext he.symm)

theorem twistAt_getElem_self (mt : Vector Word64 312) (i : Fin 312) :
    (twistAt mt i)[i] = twistWord mt[i] mt[i + 1] mt[i + 156] := Vector.getElem_set_self i.isLt

theorem foldl_twistAt (g : Gen) : (List.finRange 312).foldl twistAt g.mt = (regenerate g).mt := by
  rw [regenerate, twistRegister]

/-- A word of the register that iteration `i` of the regeneration finds: new below `i`, old from `i` on. -/
def partlyNew (g : Gen) (i j : Fin 312) : Word64 := if j < i then (regenerate g).mt[j] else g.mt[j]

theorem partlyNew_of_lt (g : Gen) {i j : Fin 312} (h : j < i) : partlyNew g i j = (regenerate g).mt[j] := if_pos h

theorem partlyNew_of_le (g : Gen) {i j : Fin 312} (h : i ≤ j) : partlyNew g i j = g.mt[j] := if_neg (not_lt.mpr h)

theorem regenerate_getElem (g : Gen) (i : Fin 312) :
    (regenerate g).mt[i] = twistWord g.mt[i] (partlyNew g i (i + 1)) (partlyNew g i (i + 156)) := by
  obtain ⟨m, hbelow, hold, hnew⟩ := exists_before_iteration twistAt_getElem_of_ne (foldl_twistAt g) i
  have hm (j : Fin 312) : m[j] = partlyNew g i j := by
    rcases lt_or_ge j i with h | h
    · exact (hbelow j h).trans (partlyNew_of_lt g h).symm
    · exact (hold j h).trans (partlyNew_of_le g h).symm
  have hself := partlyNew_of_le g (le_refl i)
  rw [← hself, ← hm, ← hm, ← hm]
  exact hnew.trans (twistAt_getElem_self m i)

/-- The far word wraps around from word 156 on. -/
theorem fin_add_156 {i : Nat} (h : i < 156) : (⟨i + 156, by omega⟩ : Fin 312) + 156 = ⟨i, by omega⟩ := by
  apply Fin.ext
  show (i + 156 + 156) % 312 = i
  omega

theorem fin_add_of_lt {i k : Nat} (h : i + k < 312) : (⟨i, by omega⟩ : Fin 312) + Fin.ofNat 312 k = ⟨i + k, h⟩ := by
  apply Fin.ext
  show (i + k % 312) % 312 = i + k
  omega

theorem regenerate_getElem_low (g : Gen) {i : Nat} (h : i < 156) :
    (regenerate g).mt[i] = twistWord g.mt[i] g.mt[i + 1] g.mt[i + 156] := by
  have hi := regenerate_getElem g ⟨i, by omega⟩
  rw [show (1 : Fin 312) = Fin.ofNat 312 1 from rfl, show (156 : Fin 312) = Fin.ofNat 312 156 from rfl,
    fin_add_of_lt (by omega), fin_add_of_lt (by omega), partlyNew_of_le g (Nat.le_succ i),
    partlyNew_of_le g (Nat.le_add_right i 156)] at hi
  exact hi

theorem regenerate_getElem_high (g : Gen) {i : Nat} (h : i < 155) : (regenerate g).mt[i + 156] =
    twistWord g.mt[i + 156] g.mt[i + 157] (regenerate g).mt[i] := by
  have hi := regenerate_getElem g ⟨i + 156, by omega⟩
  rw [show (1 : Fin 312) = Fin.ofNat 312 1 from rfl, fin_add_of_lt (by omega), fin_add_156 (by omega),
    partlyNew_of_le g (Nat.le_succ _), partlyNew_of_lt g (Nat.lt_add_of_pos_right (by decide))] at hi
  exact hi

theorem regenerate_getElem_last (g : Gen) :
    (regenerate g).mt[311] = twistWord g.mt[311] (regenerate g).mt[0] (regenerate g).mt[155] := by
  have hi := regenerate_getElem g ⟨311, by decide⟩
  rw [partlyNew_of_lt g (by decide), partlyNew_of_lt g (by decide)] at hi
  exact hi

/-! The next-word step. -/

theorem nextWord_of_used_up {g : Gen} (h : 312 ≤ g.mti.toNat) :
    nextWord g = (temper (regenerate g).mt[0], { mt := (regenerate g).mt, mti := 1 }) := by
  have hrefill : refill g = regenerate g := if_pos h
  have hmti : (regenerate g).mti = 0 := rfl
  rw [nextWord, hrefill, hmti, vector_getD_of_lt _ _ (by decide)]
  rfl

theorem nextWord_of_lt {g : Gen} (h : g.mti.toNat < 312) :
    nextWord g = (temper g.mt[g.mti.toNat], { mt := g.mt, mti := g.mti + 1 }) := by
  have hrefill : refill g = g := if_neg (not_le.mpr h)
  rw [nextWord, hrefill, vector_getD_of_lt _ _ h]

/-- Settles O22: by `regenerate_getElem`, in the ranges in which the successor and the far word are old or new. -/
theorem nextWordRegeneratesInPlace : Obligations.NextWordRegeneratesInPlace := by
  unfold Obligations.NextWordRegeneratesInPlace
  refine ⟨fun cur next far => ?twist, fun g => ⟨rfl, fun i => regenerate_getElem_low g, fun i => regenerate_getElem_high g,
    regenerate_getElem_last g, nextWord_of_used_up, nextWord_of_lt, ?moved, nextWord_mti_le g⟩⟩
  case twist => rw [twistWord, magicWord_eq]
  case moved => rw [nextWord_mti]; exact Nat.le_add_left 1 _

end Sys2Proof.Machine
end

section
/-! CLAIM. Seeding from a key (40_wordgen.md R122). -/

namespace Sys2Proof.Machine

theorem repeatTimes_eq_iterate {α : Type} (f : α → α) (n : Nat) (a : α) : repeatTimes f n a = f^[n] a := by
  induction n generalizing a with
  | zero => rfl
  | succ n ih => exact ih (f a)

theorem arrayState_eq (key : List Word64) : arrayState key =
    { mt := (arrayMix2^[311] ((arrayMix1 key)^[max 312 key.length]
        { mt := (initState Config.gen.arrSeed).mt, i := 1, j := 0 })).mt.set 0 Config.gen.arrTop, mti := 312 } := by
  simp only [arrayState, repeatTimes_eq_iterate, initState]

/-! The index after a word is replaced. -/

theorem wrapIndex_of_lt (mt : Vector Word64 312) {i : Nat} (h : i + 1 < 311) :
    wrapIndex mt ⟨i + 1, by omega⟩ = (mt, Fin.ofNat 312 (i + 2)) := by
  have hnext : ¬ 312 ≤ i + 1 + 1 := by omega
  rw [wrapIndex, if_neg hnext]
  exact congrArg _ (Fin.ext (by show (i + 1 + 1) % 312 = (i + 2) % 312; rfl))

theorem wrapIndex_last (mt : Vector Word64 312) (v : Word64) {i : Nat} (h : i + 1 < 312) (hlast : i + 1 = 311) :
    wrapIndex (mt.set (i + 1) v) ⟨i + 1, h⟩ = ((mt.set (i + 1) v).set 0 v, 1) := by
  obtain rfl : i = 310 := by omega
  rw [wrapIndex, if_pos (le_refl 312), Vector.getElem_set_self]

/-! One iteration of a mixing loop at index `i + 1`. -/

section
variable (key : List Word64) (l : ArrayLoop) {i : Nat} (h : i + 1 < 312) (hi : l.i.val = i + 1)
include hi

theorem arrayMix1_eq : arrayMix1 key l =
    let first := (l.mt[i + 1] ^^^ (scramble l.mt[i] * Config.gen.arrMul1)) + key.getD l.j 0 + BitVec.ofNat 64 l.j
    let wrapped := wrapIndex (l.mt.set (i + 1) first) ⟨i + 1, h⟩
    { mt := wrapped.1, i := wrapped.2, j := if key.length ≤ l.j + 1 then 0 else l.j + 1 } := by
  obtain ⟨mt, k, j⟩ := l
  obtain rfl : k = ⟨i + 1, h⟩ := Fin.ext hi
  simp only [arrayMix1, Fin.getElem_fin, fin_succ_sub_one h]

theorem arrayMix2_eq : arrayMix2 l =
    let second := (l.mt[i + 1] ^^^ (scramble l.mt[i] * Config.gen.arrMul2)) - BitVec.ofNat 64 (i + 1)
    let wrapped := wrapIndex (l.mt.set (i + 1) second) ⟨i + 1, h⟩
    { mt := wrapped.1, i := wrapped.2, j := l.j } := by
  obtain ⟨mt, k, j⟩ := l
  obtain rfl : k = ⟨i + 1, h⟩ := Fin.ext hi
  simp only [arrayMix2, Fin.getElem_fin, fin_succ_sub_one h]

end

theorem seedaLengthOk_iff (n : Nat) :
    (decide (1 ≤ n) && decide (8 * n ≤ Config.bufBytes)) = true ↔ 1 ≤ n ∧ n ≤ 512 := by
  rw [Bool.and_eq_true, decide_eq_true_iff, decide_eq_true_iff]
  show 1 ≤ n ∧ 8 * n ≤ 4096 ↔ _
  omega

theorem exec_seeda (ra : Reg) (s : State) : exec (.seeda ra) s =
    check (1 ≤ (s.reg ra).toNat && 8 * (s.reg ra).toNat ≤ Config.bufBytes) .config (.seeda ra) s fun s' =>
      .next (s'.seedWith (arrayState (s'.seedKey (s.reg ra).toNat))) := rfl

/-- Settles O21: the two loops are iterates, and each iteration at index `i + 1` replaces that word and then moves on or wraps. -/
theorem seedaSeedsFromTheKey : Obligations.SeedaSeedsFromTheKey := by
  unfold Obligations.SeedaSeedsFromTheKey
  refine ⟨fun ra => hasEncoding_of_formatOf rfl, fun ra s => ⟨fun hlow hhigh => ?seeded, fun hbad => ?refused⟩,
    arrayState_eq, fun key l i h hi => ⟨fun hlt => ?next, fun hlast => ?wrapped⟩⟩
  case seeded => rw [exec_seeda, check_of_true ((seedaLengthOk_iff _).mpr ⟨hlow, hhigh⟩), State.seedWith_eq, State.seedKey]
  case refused => rw [exec_seeda, check_of_false (Bool.eq_false_iff.mpr (mt (seedaLengthOk_iff _).mp (by omega)))]
  case next =>
    rw [arrayMix1_eq key l h hi, arrayMix2_eq l h hi]
    simp only [wrapIndex_of_lt _ hlt, scramble, and_self]
  case wrapped =>
    rw [arrayMix1_eq key l h hi, arrayMix2_eq l h hi]
    simp only [wrapIndex_last _ _ h hlast, scramble, and_self]

end Sys2Proof.Machine
end

section
/-! CLAIM. Tempering (40_wordgen.md R125). -/

namespace Sys2Proof.Machine

/-- A word mixed with a masked copy of itself shifted right, as in the first step of R125. -/
def xorShiftRight {w : Nat} (k : Nat) (m x : BitVec w) : BitVec w := x ^^^ ((x >>> k) &&& m)

/-- A word mixed with a masked copy of itself shifted left, as in the second and the third step of R125. -/
def xorShiftLeft {w : Nat} (k : Nat) (m x : BitVec w) : BitVec w := x ^^^ ((x <<< k) &&& m)

section
variable {w k : Nat} (hk : 0 < k) (m : BitVec w)
include hk

/-- A right shift takes each bit from a higher one, so the bits are determined from the top down. -/
theorem xorShiftRight_injective : Function.Injective (xorShiftRight k m) := by
  intro x y h
  have hbit (j : Nat) : (x.getLsbD j ^^ (x.getLsbD (k + j) && m.getLsbD j)) =
      (y.getLsbD j ^^ (y.getLsbD (k + j) && m.getLsbD j)) := by
    simpa only [xorShiftRight, BitVec.getLsbD_xor, BitVec.getLsbD_and, BitVec.getLsbD_ushiftRight] using congrArg (·.getLsbD j) h
  have hfrom (n j : Nat) (hj : w ≤ n + j) : x.getLsbD j = y.getLsbD j := by
    induction n generalizing j with
    | zero => rw [x.getLsbD_of_ge j (by omega), y.getLsbD_of_ge j (by omega)]
    | succ n ih =>
      have hj' := hbit j
      rw [ih (k + j) (by omega)] at hj'
      exact Bool.xor_left_inj.mp hj'
  exact BitVec.eq_of_getLsbD_eq fun j _ => hfrom w j (Nat.le_add_right w j)

/-- A left shift takes each bit from a lower one, so the bits are determined from the bottom up. -/
theorem xorShiftLeft_injective : Function.Injective (xorShiftLeft k m) := by
  intro x y h
  have hbit (j : Nat) (hj : j < w) : (x.getLsbD j ^^ ((!decide (j < k) && x.getLsbD (j - k)) && m.getLsbD j)) =
      (y.getLsbD j ^^ ((!decide (j < k) && y.getLsbD (j - k)) && m.getLsbD j)) := by
    simpa only [xorShiftLeft, BitVec.getLsbD_xor, BitVec.getLsbD_and, BitVec.getLsbD_shiftLeft, hj, decide_true, Bool.true_and]
      using congrArg (·.getLsbD j) h
  refine BitVec.eq_of_getLsbD_eq fun j => ?_
  induction j using Nat.strong_induction_on with
  | _ j ih =>
    intro hj
    have hj' := hbit j hj
    rcases lt_or_ge j k with hlt | hge
    · rw [decide_eq_true hlt] at hj'
      exact Bool.xor_left_inj.mp hj'
    · rw [ih (j - k) (by omega) (by omega)] at hj'
      exact Bool.xor_left_inj.mp hj'

end

/-- The last step of the tempering has no mask. -/
theorem temper_eq_comp : temper = xorShiftRight 43 (BitVec.allOnes 64) ∘ xorShiftLeft 37 Config.gen.temper3 ∘
    xorShiftLeft 17 Config.gen.temper2 ∘ xorShiftRight 29 Config.gen.temper1 := by
  funext x
  simp only [temper, xorShiftRight, xorShiftLeft, Function.comp_apply, BitVec.and_allOnes]

theorem temper_injective : Function.Injective temper := by
  rw [temper_eq_comp]
  exact (xorShiftRight_injective (by decide) _).comp ((xorShiftLeft_injective (by decide) _).comp
    ((xorShiftLeft_injective (by decide) _).comp (xorShiftRight_injective (by decide) _)))

/-- Settles O23: each of the four steps is injective, whatever its mask, and the words are finitely many. -/
theorem temperIsABijection : Obligations.TemperIsABijection := by
  unfold Obligations.TemperIsABijection
  exact ⟨fun x => rfl, Finite.injective_iff_bijective.mp temper_injective, rfl, rfl, rfl, rfl⟩

end Sys2Proof.Machine
end

section
/-! SUPPORT. Fields of a stored image, and words stored as bytes (20_memory.md R66, R67; 40_wordgen.md R128, R131). -/

namespace Sys2Proof.Machine

theorem State.memRead_congr {s t : State} {addr n : Nat} (h : ∀ k < n, s.bufRead (addr + k) = t.bufRead (addr + k)) :
    s.memRead addr n = t.memRead addr n :=
  congrArg natOfBytes (List.map_congr_left fun k hk => h k (List.mem_range.mp hk))

/-- A read within bytes that were stored from byte 0 on. -/
theorem State.memRead_storeBytes (s : State) {bs : List Byte} {addr n : Nat} (h : addr + n ≤ bs.length) :
    (s.storeBytes 0 bs).memRead addr n = natOfBytes ((bs.drop addr).take n) := by
  refine congrArg natOfBytes (List.ext_getElem ?_ fun k hk _ => ?_)
  · rw [List.length_map, List.length_range, List.length_take, List.length_drop]
    omega
  · have hk : k < n := by rwa [List.length_map, List.length_range] at hk
    rw [List.getElem_map, List.getElem_range, List.getElem_take, List.getElem_drop, bufRead_storeBytes, dif_pos (by omega)]
    rfl

theorem natOfBytes_lt (bs : List Byte) : natOfBytes bs < 256 ^ bs.length := by
  induction bs with
  | nil => exact Nat.one_pos
  | cons b bs ih =>
    have hb := b.isLt
    rw [natOfBytes, List.length_cons, pow_succ']
    omega

theorem State.memRead_lt (s : State) (addr n : Nat) : s.memRead addr n < 256 ^ n := by
  have h := natOfBytes_lt ((List.range n).map fun k => s.bufRead (addr + k))
  rwa [List.length_map, List.length_range] at h

/-- The bytes of word `k` and of the words behind it. -/
theorem drop_flatMap_bytesLE (ws : List Word64) (k : Nat) :
    (ws.flatMap fun w => bytesLE 8 w.toNat).drop (8 * k) = (ws.drop k).flatMap fun w => bytesLE 8 w.toNat := by
  induction k generalizing ws with
  | zero => rfl
  | succ k ih =>
    cases ws with
    | nil => simp only [List.flatMap_nil, List.drop_nil]
    | cons w ws =>
      rw [List.flatMap_cons, List.drop_succ_cons, ← ih, Nat.mul_succ, Nat.add_comm, ← List.drop_drop,
        List.drop_left' (bytesLE_length 8 _)]

theorem drop_flatMap_bytesLE_eq_append {ws : List Word64} {k : Nat} (h : k < ws.length) :
    (ws.flatMap fun w => bytesLE 8 w.toNat).drop (8 * k) =
      bytesLE 8 ws[k].toNat ++ (ws.drop (k + 1)).flatMap fun w => bytesLE 8 w.toNat := by
  rw [drop_flatMap_bytesLE, List.drop_eq_getElem_cons h, List.flatMap_cons]

end Sys2Proof.Machine
end

section
/-! CLAIM. `SAVE` (40_wordgen.md R128). -/

namespace Sys2Proof.Machine

/-- The first 2540 bytes of `BUF` are the serialised state of the generator, field by field (R128). -/
def State.holdsImage (t : State) (g : Gen) : Prop :=
  t.memRead 0 4 = 312 ∧ t.memRead 4 4 = 156 ∧
    t.memRead 8 8 = Config.gen.upperMask.toNat ∧ t.memRead 16 8 = Config.gen.lowerMask.toNat ∧
    t.memRead 24 8 = Config.gen.mag0.toNat ∧ t.memRead 32 8 = Config.gen.mag1.toNat ∧
    t.memRead 40 4 = g.mti.toNat ∧ ∀ i : Fin 312, t.memRead (44 + 8 * i.val) 8 = g.mt[i].toNat

section
variable (s : State) (g : Gen)

/-- A field of the stored image, by its bytes in the image. -/
theorem memRead_image {addr n v : Nat} (hlen : addr + n ≤ 2540) (hbytes : ((serialise g).drop addr).take n = bytesLE n v)
    (hv : v < 256 ^ n) : (s.storeBytes 0 (serialise g)).memRead addr n = v := by
  rw [s.memRead_storeBytes (by rwa [serialise_length]), hbytes, natOfBytes_bytesLE, Nat.mod_eq_of_lt hv]

theorem image_word (i : Fin 312) : ((serialise g).drop (44 + 8 * i.val)).take 8 = bytesLE 8 g.mt[i].toNat := by
  have hfront : (serialHeader ++ bytesLE 4 g.mti.toNat).length = 44 := rfl
  have hi : i.val < g.mt.toList.length := by rw [Vector.length_toList]; exact i.isLt
  rw [serialise, ← List.drop_drop, List.drop_left' hfront, drop_flatMap_bytesLE_eq_append hi,
    List.take_left' (bytesLE_length 8 _), Vector.getElem_toList]
  rfl

theorem storeBytes_serialise_holdsImage : (s.storeBytes 0 (serialise g)).holdsImage g := by
  have hcursor : g.mti.toNat < 256 ^ 4 := g.mti.isLt.trans (by decide)
  exact ⟨memRead_image s g (by decide) rfl (by decide), memRead_image s g (by decide) rfl (by decide),
    memRead_image s g (by decide) rfl (by decide), memRead_image s g (by decide) rfl (by decide),
    memRead_image s g (by decide) rfl (by decide), memRead_image s g (by decide) rfl (by decide),
    memRead_image s g (by decide) rfl hcursor, fun i => memRead_image s g (by omega) (image_word g i) g.mt[i].isLt⟩

end

theorem exec_save (s : State) : exec .save s =
    check s.seeded .unseeded .save s fun s => .next (s.storeBytes 0 (serialise s.gen)) := rfl

theorem exec_save_of_seeded {s : State} (h : s.seeded = true) :
    exec .save s = .next (s.storeBytes 0 (serialise s.gen)) := by
  rw [exec_save, check_of_true h]

/-- Settles O25: the image is stored at byte 0, and each field is read back from its bytes in the image. -/
theorem saveWritesTheSerialisedState : Obligations.SaveWritesTheSerialisedState := by
  unfold Obligations.SaveWritesTheSerialisedState
  refine ⟨hasEncoding_of_formatOf rfl, fun s => ⟨fun hseeded => ?_, fun hunseeded => ?unseeded⟩⟩
  case unseeded => rw [exec_save, check_of_false hunseeded]
  obtain ⟨h0, h4, h8, h16, h24, h32, h40, hwords⟩ := storeBytes_serialise_holdsImage s s.gen
  refine ⟨Memory.store s.buf 0 (serialise s.gen), exec_save_of_seeded hseeded, h0, h4, h8, h16, h24, h32, h40, hwords,
    fun a ha => ?_⟩
  exact (s.bufRead_storeBytes 0 _ a).trans (dif_neg (by rw [serialise_length]; omega))

end Sys2Proof.Machine
end

section
/-! CLAIM. `RESTORE` (40_wordgen.md R129, R130). -/

namespace Sys2Proof.Machine

variable {s t : State} {g : Gen}

/-! A field of 4 bytes as a signed integer (R129). -/

theorem memInt4_eq_bmod (s : State) (addr : Nat) : s.memInt4 addr = (s.memRead addr 4 : Int).bmod (2 ^ 32) := by
  rw [State.memInt4, BitVec.toInt_ofNat']

theorem memInt4_eq_iff (s : State) (addr : Nat) {n : Nat} (h : n < 2 ^ 31) :
    s.memInt4 addr = n ↔ s.memRead addr 4 = n := by
  have hlt : s.memRead addr 4 < 2 ^ 32 := s.memRead_lt addr 4
  rw [memInt4_eq_bmod, Int.bmod]
  split <;> omega

theorem imageOk_iff (s : State) : s.imageOk = true ↔
    s.memRead 0 4 = 312 ∧ s.memRead 4 4 = 156 ∧
      s.memRead 8 8 = Config.gen.upperMask.toNat ∧ s.memRead 16 8 = Config.gen.lowerMask.toNat ∧
      s.memRead 24 8 = Config.gen.mag0.toNat ∧ s.memRead 32 8 = Config.gen.mag1.toNat ∧
      0 ≤ s.memInt4 40 ∧ s.memInt4 40 ≤ 312 := by
  have hsize := memInt4_eq_iff s 0 (n := 312) (by decide)
  have hmiddle := memInt4_eq_iff s 4 (n := 156) (by decide)
  simp only [State.imageOk, Bool.and_eq_true, beq_iff_eq, decide_eq_true_eq, and_assoc, ← hsize, ← hmiddle, Nat.cast_ofNat]

theorem exists_memInt4_of_imageOk (h : s.imageOk = true) : ∃ n ≤ 312, s.memRead 40 4 = n ∧ s.memInt4 40 = n := by
  obtain ⟨-, -, -, -, -, -, hlow, hhigh⟩ := (imageOk_iff s).mp h
  obtain ⟨n, hn⟩ := Int.eq_ofNat_of_zero_le hlow
  have hle : n ≤ 312 := by omega
  exact ⟨n, hle, (memInt4_eq_iff s 40 (by omega)).mp hn, hn⟩

theorem imageGen_mti (h : s.imageOk = true) : s.imageGen.mti.toNat = s.memRead 40 4 := by
  obtain ⟨n, hle, hread, hint⟩ := exists_memInt4_of_imageOk h
  show (BitVec.ofInt 9 (s.memInt4 40)).toNat = _
  rw [hint, hread, BitVec.ofInt_natCast, BitVec.toNat_ofNat, Nat.mod_eq_of_lt (by omega)]

theorem imageGen_mt (s : State) (i : Fin 312) : s.imageGen.mt[i].toNat = s.memRead (44 + 8 * i.val) 8 := by
  have hlt : s.memRead (44 + 8 * i.val) 8 < 2 ^ 64 := s.memRead_lt _ 8
  have hword : s.imageGen.mt[i] = BitVec.ofNat 64 (s.memRead (44 + 8 * i.val) 8) := by
    simp only [State.imageGen, Fin.getElem_fin, Vector.getElem_ofFn]
  rw [hword, BitVec.toNat_ofNat, Nat.mod_eq_of_lt hlt]

theorem exec_restore (s : State) : exec .restore s =
    check s.imageOk .format .restore s fun s => .next (s.seedWith s.imageGen) := rfl

/-! An image that `SAVE` wrote. -/

theorem State.holdsImage.congr (h : t.holdsImage g) (hbuf : ∀ a < 2540, s.bufRead a = t.bufRead a) : s.holdsImage g := by
  have hread {addr n : Nat} (hlen : addr + n ≤ 2540) : s.memRead addr n = t.memRead addr n :=
    State.memRead_congr fun k hk => hbuf _ (by omega)
  obtain ⟨h0, h4, h8, h16, h24, h32, h40, hwords⟩ := h
  exact ⟨(hread (by decide)).trans h0, (hread (by decide)).trans h4, (hread (by decide)).trans h8,
    (hread (by decide)).trans h16, (hread (by decide)).trans h24, (hread (by decide)).trans h32, (hread (by decide)).trans h40,
    fun i => (hread (by omega)).trans (hwords i)⟩

theorem State.holdsImage.imageOk (h : t.holdsImage g) (hg : g.mti.toNat ≤ 312) : t.imageOk = true := by
  obtain ⟨h0, h4, h8, h16, h24, h32, h40, -⟩ := h
  have hint := (memInt4_eq_iff t 40 (hg.trans_lt (by decide))).mpr h40
  exact (imageOk_iff t).mpr ⟨h0, h4, h8, h16, h24, h32, by omega, by omega⟩

theorem State.holdsImage.imageGen_eq (h : t.holdsImage g) (hg : g.mti.toNat ≤ 312) : t.imageGen = g := by
  have hmti := imageGen_mti (h.imageOk hg)
  have hmt := imageGen_mt t
  obtain ⟨-, -, -, -, -, -, h40, hwords⟩ := h
  generalize t.imageGen = image at hmti hmt ⊢
  obtain ⟨mt, mti⟩ := image
  obtain ⟨mt', mti'⟩ := g
  rw [Gen.mk.injEq]
  exact ⟨Vector.ext fun i hi => BitVec.eq_of_toNat_eq ((hmt ⟨i, hi⟩).trans (hwords ⟨i, hi⟩)),
    BitVec.eq_of_toNat_eq (hmti.trans h40)⟩

/-- Settles O26: the checks are the conditions of R129, and a cursor that passes them fits the 9 bits of `MTI`. -/
theorem restoreChecksTheImage : Obligations.RestoreChecksTheImage := by
  unfold Obligations.RestoreChecksTheImage
  refine ⟨hasEncoding_of_formatOf rfl, fun s => ⟨fun hok => ?taken, fun hbad => ?refused⟩⟩
  case taken =>
    have hok := (imageOk_iff s).mpr hok
    exact ⟨s.imageGen, by rw [exec_restore, check_of_true hok, State.seedWith_eq], imageGen_mti hok, imageGen_mt s⟩
  case refused => rw [exec_restore, check_of_false (Bool.eq_false_iff.mpr (mt (imageOk_iff s).mp hbad))]

/-- Settles O27: the bytes that `SAVE` wrote hold the image of the saved generator, and a good image describes one generator. -/
theorem restoreUndoesSave : Obligations.RestoreUndoesSave := by
  unfold Obligations.RestoreUndoesSave
  intro s t u hseeded hmti hsave hbuf
  obtain rfl : s.storeBytes 0 (serialise s.gen) = t := Host.Outcome.next.inj ((exec_save_of_seeded hseeded).symm.trans hsave)
  have himage := (storeBytes_serialise_holdsImage s s.gen).congr hbuf
  rw [exec_restore, check_of_true (himage.imageOk hmti), himage.imageGen_eq hmti, State.seedWith_eq]

end Sys2Proof.Machine
end

section
/-! CLAIM. `NBYTES` and `NBYTESZ` (40_wordgen.md R131, R132). -/

namespace Sys2Proof.Machine

/-- Drawing more words does not change the earlier ones. -/
theorem getD_drawWords {n k : Nat} (g : Gen) (h : k < n) : (drawWords n g).1.getD k 0 = wordDrawn g k := by
  obtain ⟨n, rfl⟩ := Nat.exists_eq_add_of_lt h
  rw [wordDrawn]
  induction k generalizing g with
  | zero => simp only [drawWords_succ, List.getD_cons_zero]
  | succ k ih =>
    rw [Nat.add_right_comm k 1 n, drawWords_succ, drawWords_succ (k + 1), List.getD_cons_succ, List.getD_cons_succ]
    exact ih _ (by omega)

theorem getElem_drawWords {n k : Nat} (g : Gen) (h : k < (drawWords n g).1.length) : (drawWords n g).1[k] = wordDrawn g k := by
  rw [← List.getD_eq_getElem _ 0, getD_drawWords g (by rwa [drawWords_length] at h)]

theorem fillBytes_eq (count : Nat) (g : Gen) : fillBytes count g =
    (((drawWords ((count + 7) / 8) g).1.flatMap fun w => bytesLE 8 w.toNat).take count, (drawWords ((count + 7) / 8) g).2) := rfl

theorem getElem?_bytesLE_word (w : Word64) {j : Nat} (h : j < 8) :
    (bytesLE 8 w.toNat)[j]? = some (w.extractLsb' (8 * j) 8) := by
  rw [List.getElem?_eq_getElem (by rwa [bytesLE_length]), getElem_bytesLE, Option.some.injEq]
  exact BitVec.eq_of_toNat_eq (by rw [BitVec.extractLsb'_toNat, Nat.shiftRight_eq_div_pow, BitVec.toNat_ofNat])

/-- Byte `8k + j` is byte `j` of the `k`-th word (R131). -/
theorem getElem?_fillBytes {count k j : Nat} (g : Gen) (hj : j < 8) (h : 8 * k + j < count) :
    (fillBytes count g).1[8 * k + j]? = some ((wordDrawn g k).extractLsb' (8 * j) 8) := by
  have hk : k < (drawWords ((count + 7) / 8) g).1.length := by rw [drawWords_length]; omega
  rw [fillBytes_eq, List.getElem?_take_of_lt h, ← List.getElem?_drop, drop_flatMap_bytesLE_eq_append hk,
    List.getElem?_append_left (by rwa [bytesLE_length]), getElem?_bytesLE_word _ hj, getElem_drawWords]

/-! The state that both commands leave: the bytes of the words, for `NBYTESZ` with the zero byte as `tail`. -/

/-- `count` bytes of successive words and then `tail` stored from byte 0 on, and the words drawn (R131, R132). -/
def State.filled (s : State) (count : Nat) (tail : List Byte) : State :=
  { s with
    gen := (drawWords ((count + 7) / 8) s.gen).2
    buf := Memory.store s.buf 0 ((fillBytes count s.gen).1 ++ tail) }

section
variable (s : State) (count : Nat) (tail : List Byte)

theorem State.filled_eq : s.filled count tail =
    (s.setGen (fillBytes count s.gen).2).storeBytes 0 ((fillBytes count s.gen).1 ++ tail) := rfl

theorem bufRead_filled (a : Nat) : (s.filled count tail).bufRead a =
    (((fillBytes count s.gen).1 ++ tail)[a]?).getD (s.bufRead a) := by
  rw [State.filled_eq, State.bufRead_storeBytes]
  split
  · rename_i h
    rw [List.getElem?_eq_getElem (by omega)]
    rfl
  · rw [List.getElem?_eq_none (by omega)]
    rfl

theorem bufRead_filled_word {k j : Nat} (hj : j < 8) (h : 8 * k + j < count) :
    (s.filled count tail).bufRead (8 * k + j) = (wordDrawn s.gen k).extractLsb' (8 * j) 8 := by
  rw [bufRead_filled, List.getElem?_append_left (by rwa [fillBytes_length]), getElem?_fillBytes _ hj h, Option.getD_some]

theorem bufRead_filled_tail {k : Nat} (h : k < tail.length) : (s.filled count tail).bufRead (count + k) = tail[k] := by
  rw [bufRead_filled, List.getElem?_append_right (by rw [fillBytes_length]; omega), fillBytes_length, Nat.add_sub_cancel_left,
    List.getElem?_eq_getElem h, Option.getD_some]

theorem bufRead_filled_of_le {a : Nat} (h : count + tail.length ≤ a) : (s.filled count tail).bufRead a = s.bufRead a := by
  rw [bufRead_filled, List.getElem?_eq_none (by rwa [List.length_append, fillBytes_length]), Option.getD_none]

end

theorem exec_nbytes (ra : Reg) (s : State) : exec (.nbytes ra) s =
    check s.seeded .unseeded (.nbytes ra) s fun s =>
      check ((s.reg ra).toNat ≤ 4096) .operand (.nbytes ra) s fun s => .next (s.filled (s.reg ra).toNat []) := by
  simp only [State.filled_eq, List.append_nil]
  rfl

theorem exec_nbytesz (ra : Reg) (s : State) : exec (.nbytesz ra) s =
    check s.seeded .unseeded (.nbytesz ra) s fun s =>
      check ((s.reg ra).toNat + 1 ≤ 4096) .operand (.nbytesz ra) s fun s => .next (s.filled (s.reg ra).toNat [0]) := rfl

/-- Settles O28: both commands leave `State.filled`, with no byte or with one zero byte behind the words. -/
theorem nbytesFillsTheBuffer : Obligations.NbytesFillsTheBuffer := by
  unfold Obligations.NbytesFillsTheBuffer
  refine fun ra s => ⟨hasEncoding_of_formatOf rfl, hasEncoding_of_formatOf rfl, fun hs hc => ?nbytes, fun hs hc => ?nbytesz,
    fun hs hc => ?nbytesLong, fun hs hc => ?nbyteszLong, fun hs => ?unseeded⟩
  case nbytes =>
    refine ⟨_, ?_, fun k j => bufRead_filled_word s _ [], fun a => bufRead_filled_of_le s _ []⟩
    rw [exec_nbytes, check_of_true hs, check_of_true (decide_eq_true hc), State.filled]
  case nbytesz =>
    refine ⟨_, ?_, fun k j => bufRead_filled_word s _ [0], bufRead_filled_tail s _ [0] Nat.one_pos,
      fun a => bufRead_filled_of_le s _ [0]⟩
    rw [exec_nbytesz, check_of_true hs, check_of_true (decide_eq_true hc), State.filled]
  case nbytesLong => rw [exec_nbytes, check_of_true hs, check_of_false (decide_eq_false (not_le.mpr hc))]
  case nbyteszLong => rw [exec_nbytesz, check_of_true hs, check_of_false (decide_eq_false (not_le.mpr hc))]
  case unseeded =>
    rw [List.forall_mem_cons, List.forall_mem_singleton, exec_nbytes, exec_nbytesz, check_of_false hs, check_of_false hs]
    exact ⟨rfl, rfl⟩

end Sys2Proof.Machine
end

section
/-! SUPPORT. Where the commands of the range mapper complete and where they end with an error (41_rangemap.md R150, R172). -/

namespace Sys2Proof.Machine

variable {s : State} {i : Instr} {rd : Reg} {ok : Bool} {write : Word64 → State → State}

theorem drawCommand_refuses (hs : s.seeded = true) (ho : ok = false) :
    drawCommand i ok s write = .next (s.raise .operand i) := by
  rw [drawCommand, check_of_true hs, check_of_false ho]

theorem drawCommand_unseeded (hs : s.seeded = false) : drawCommand i ok s write = .next (s.raise .unseeded i) :=
  check_of_false hs

section
variable {lo hi : Int} {mapper : Word64 → Int → Int → Int}

theorem drawBounded_completes (hs : s.seeded = true) (h : lo ≤ hi) : drawBounded i rd lo hi mapper s =
    .next (s.drawnInto rd (wordOfInt (mapper s.nextDraw lo hi))) :=
  drawCommand_completes hs (decide_eq_true h)

theorem drawBounded_refuses (hs : s.seeded = true) (h : hi < lo) :
    drawBounded i rd lo hi mapper s = .next (s.raise .operand i) :=
  drawCommand_refuses hs (decide_eq_false (not_le.2 h))

theorem drawBounded_unseeded (hs : s.seeded = false) :
    drawBounded i rd lo hi mapper s = .next (s.raise .unseeded i) :=
  drawCommand_unseeded hs

end

section
variable {value : Word64 → F64}

theorem drawDouble_completes (hs : s.seeded = true) (ho : ok = true) :
    drawDouble i rd ok value s = .next (s.drawnInto rd (fToBits (value s.nextDraw))) :=
  drawCommand_completes hs ho

theorem drawDouble_refuses (hs : s.seeded = true) (ho : ok = false) :
    drawDouble i rd ok value s = .next (s.raise .operand i) :=
  drawCommand_refuses hs ho

end

section
variable {value : Word64 → Int} (hw : i.wellFormed = true)
include hw

theorem drawFixed_eq : drawFixed i rd ok value s = drawCommand i ok s fun w t => t.setPair rd (value w) := by
  rw [drawFixed, checkLegal, check_of_true hw]

theorem drawFixed_completes (hs : s.seeded = true) (ho : ok = true) : drawFixed i rd ok value s =
    .next ((s.setGen (nextWord s.gen).2).setPair rd (value s.nextDraw)) := by
  rw [drawFixed_eq hw, drawCommand_completes hs ho]

theorem drawFixed_refuses (hs : s.seeded = true) (ho : ok = false) :
    drawFixed i rd ok value s = .next (s.raise .operand i) := by
  rw [drawFixed_eq hw, drawCommand_refuses hs ho]

theorem drawFixed_unseeded (hs : s.seeded = false) : drawFixed i rd ok value s = .next (s.raise .unseeded i) := by
  rw [drawFixed_eq hw, drawCommand_unseeded hs]

end

end Sys2Proof.Machine
end

section
/-! CLAIM. The unbounded outputs (41_rangemap.md R151 to R153; 40_wordgen.md R126). -/

namespace Sys2Proof.Machine

theorem setWidth_setWidth_eq_ofNat (w : Word64) : (w.setWidth 32).setWidth 64 = BitVec.ofNat 64 (w.toNat % 2 ^ 32) := by
  apply BitVec.eq_of_toNat_eq
  rw [BitVec.toNat_setWidth, BitVec.toNat_setWidth, BitVec.toNat_ofNat]

theorem toNat_and_lowMask (w : Word64) : (w &&& 0xFFFFFFFF).toNat = w.toNat % 2 ^ 32 :=
  (BitVec.toNat_and ..).trans (Nat.and_two_pow_sub_one_eq_mod w.toNat 32)

/-- Sign extension of the low half puts ones above it exactly when bit 31 is 1 (R153). -/
theorem signExtend_setWidth_eq (w : Word64) : (w.setWidth 32).signExtend 64 =
    if w.getLsbD 31 then 0xFFFFFFFF00000000 ||| (w &&& 0xFFFFFFFF) else w &&& 0xFFFFFFFF := by
  have hlt : w.toNat % 2 ^ 32 < 2 ^ 32 := Nat.mod_lt _ (by decide)
  have hmsb : (w.setWidth 32).msb = w.getLsbD 31 := by simp [BitVec.msb_eq_getLsbD_last]
  have hlow : ((w.setWidth 32).setWidth 64).toNat = w.toNat % 2 ^ 32 := by
    rw [BitVec.toNat_setWidth, BitVec.toNat_setWidth, Nat.mod_eq_of_lt (hlt.trans (by decide))]
  apply BitVec.eq_of_toNat_eq
  rw [BitVec.toNat_signExtend, hlow, hmsb]
  split
  · have hones : (0xFFFFFFFF00000000 : Word64).toNat = 2 ^ 32 * 0xFFFFFFFF := rfl
    rw [BitVec.toNat_or, toNat_and_lowMask, hones, ← Nat.two_pow_add_eq_or_of_lt hlt, add_comm]
  · rw [toNat_and_lowMask, add_zero]

section
variable (rd : Reg) (s : State)

theorem exec_nu64 : exec (.nu64 rd) s = drawCommand (.nu64 rd) true s fun w t => t.setReg rd w := rfl

theorem exec_nu32 : exec (.nu32 rd) s =
    drawCommand (.nu32 rd) true s fun w t => t.setReg rd ((w.setWidth 32).setWidth 64) := rfl

theorem exec_ni64 : exec (.ni64 rd) s = drawCommand (.ni64 rd) true s fun w t => t.setReg rd w := rfl

theorem exec_ni32 : exec (.ni32 rd) s =
    drawCommand (.ni32 rd) true s fun w t => t.setReg rd ((w.setWidth 32).signExtend 64) := rfl

end

/-- Settles O24: each command draws one word and writes it whole or its low half extended. -/
theorem unboundedOutputs : Obligations.UnboundedOutputs := by
  unfold Obligations.UnboundedOutputs
  intro rd s w
  rw [exec_nu64, exec_nu32, exec_ni64, exec_ni32]
  refine ⟨hasEncoding_of_formatOf rfl, hasEncoding_of_formatOf rfl, hasEncoding_of_formatOf rfl,
    hasEncoding_of_formatOf rfl, fun hs => ?drawn, fun hs => ?unseeded⟩
  case drawn =>
    simp only [drawCommand_completes hs, setReg_setGen_nextWord, setWidth_setWidth_eq_ofNat, signExtend_setWidth_eq]
    exact ⟨rfl, rfl, rfl, rfl⟩
  case unseeded =>
    rw [List.forall_mem_cons, List.forall_mem_cons, List.forall_mem_cons, List.forall_mem_singleton, exec_nu64, exec_nu32,
      exec_ni64, exec_ni32]
    exact ⟨drawCommand_unseeded hs, drawCommand_unseeded hs, drawCommand_unseeded hs, drawCommand_unseeded hs⟩

end Sys2Proof.Machine
end

section
/-! SUPPORT. The 64-bit mapping of a word (41_rangemap.md R154). -/

namespace Sys2Proof.Machine

/-- The mapping gives a number of the range. -/
theorem map64_bounds (w : Word64) {lo hi : Int} (h : lo ≤ hi) : lo ≤ map64 w lo hi ∧ map64 w lo hi ≤ hi := by
  have hspan : 0 < hi - lo + 1 := by omega
  have hw : (w.toNat : Int) < 2 ^ 64 := by exact_mod_cast w.isLt
  have hlow : 0 ≤ (w.toNat : Int) * (hi - lo + 1) / 2 ^ 64 :=
    Int.ediv_nonneg (mul_nonneg (Int.natCast_nonneg _) hspan.le) (by decide)
  have hhigh : (w.toNat : Int) * (hi - lo + 1) / 2 ^ 64 < hi - lo + 1 :=
    Int.ediv_lt_of_lt_mul (by decide) (by rw [mul_comm (hi - lo + 1)]; exact mul_lt_mul_of_pos_right hw hspan)
  rw [map64]
  omega

end Sys2Proof.Machine
end

section
/-! CLAIM. The 64-bit mapping spreads the words evenly over the range (41_rangemap.md R154). -/

namespace Sys2Proof.Machine

/-- The numbers that a scaling from `n` to `span` values takes to `k` are an interval. -/
theorem mul_div_eq_iff {n span : Nat} (hn : 0 < n) (hspan : 0 < span) (w k : Nat) :
    w * span / n = k ↔ w ∈ Set.Ico (k * n ⌈/⌉ span) ((k + 1) * n ⌈/⌉ span) := by
  have hlow : k * n ⌈/⌉ span ≤ w ↔ k ≤ w * span / n := by
    rw [ceilDiv_le_iff_le_mul hspan, Nat.le_div_iff_mul_le hn, mul_comm span]
  have hhigh : (k + 1) * n ⌈/⌉ span ≤ w ↔ k + 1 ≤ w * span / n := by
    rw [ceilDiv_le_iff_le_mul hspan, Nat.le_div_iff_mul_le hn, mul_comm span]
  rw [Set.mem_Ico, hlow, ← not_le, hhigh]
  omega

/-- That interval has `n / span` members, or one more. -/
theorem ceilDiv_sub_ceilDiv (n : Nat) {span : Nat} (hspan : 0 < span) (k : Nat) :
    ((k + 1) * n ⌈/⌉ span) - (k * n ⌈/⌉ span) = n / span ∨ ((k + 1) * n ⌈/⌉ span) - (k * n ⌈/⌉ span) = n / span + 1 := by
  have hnext : (k + 1) * n + span - 1 = (k * n + span - 1) + n := by
    rw [Nat.succ_mul]
    omega
  rw [Nat.ceilDiv_eq_add_pred_div, Nat.ceilDiv_eq_add_pred_div, hnext, Nat.add_div hspan, add_assoc, Nat.add_sub_cancel_left]
  split
  · exact .inr rfl
  · exact .inl rfl

/-- No number of the interval of a place below `span` is too large for a word. -/
theorem ceilDiv_le_of_lt {n span k : Nat} (hk : k < span) : (k + 1) * n ⌈/⌉ span ≤ n := by
  rw [ceilDiv_le_iff_le_mul (by omega)]
  exact Nat.mul_le_mul_right n hk

/-- As many words have their value in an interval of words as the interval has members. -/
theorem card_word_mem_Ico (a : Nat) {b : Nat} (hb : b ≤ 2 ^ 64) :
    Nat.card { w : Word64 // w.toNat ∈ Set.Ico a b } = b - a := by
  have himage : BitVec.toNat '' { w : Word64 | w.toNat ∈ Set.Ico a b } = Set.Ico a b := by
    ext m
    constructor
    · rintro ⟨w, hw, rfl⟩
      exact hw
    · intro hm
      have hnat : (BitVec.ofNat 64 m).toNat = m := by rw [BitVec.toNat_ofNat, Nat.mod_eq_of_lt (hm.2.trans_le hb)]
      exact ⟨BitVec.ofNat 64 m, by rwa [Set.mem_ofPred_eq, hnat], hnat⟩
  have hinj : Function.Injective (BitVec.toNat : Word64 → Nat) := fun _ _ => BitVec.eq_of_toNat_eq
  calc Nat.card { w : Word64 // w.toNat ∈ Set.Ico a b }
      = Nat.card (BitVec.toNat '' { w : Word64 | w.toNat ∈ Set.Ico a b }) :=
        (Nat.card_image_of_injective hinj _).symm
    _ = b - a := by rw [himage, Nat.card_coe_set_eq, Set.ncard_Ico_nat]

/-- The place of the mapped value in its range, in natural numbers. -/
theorem map64_eq_iff (w : Word64) (lo : Int) {hi : Int} {span : Nat} (hspan : hi - lo + 1 = span) (k : Nat) :
    map64 w lo hi = lo + k ↔ w.toNat * span / 2 ^ 64 = k := by
  rw [map64, hspan, add_right_inj]
  norm_cast

/-- Settles O29: the words of a value are the interval of those that the scaling takes to its place. -/
theorem map64SpreadsWordsEvenly : Obligations.Map64SpreadsWordsEvenly := by
  unfold Obligations.Map64SpreadsWordsEvenly
  intro lo hi hle hlt
  obtain ⟨span, hspan⟩ := Int.eq_ofNat_of_zero_le (show 0 ≤ hi - lo + 1 by omega)
  have hpos : 0 < span := by omega
  refine ⟨fun w => ⟨rfl, (map64_bounds w hle).1, (map64_bounds w hle).2, fun hfull => ?full⟩, fun v hlow hhigh => ?evenly⟩
  case full => rw [map64, hfull, Int.mul_ediv_cancel _ (by decide)]
  case evenly =>
    obtain ⟨k, hk⟩ := Int.eq_ofNat_of_zero_le (show 0 ≤ v - lo by omega)
    obtain rfl : v = lo + k := by omega
    have hcard := card_word_mem_Ico (k * 2 ^ 64 ⌈/⌉ span) (ceilDiv_le_of_lt (n := 2 ^ 64) (show k < span by omega))
    simp only [map64_eq_iff _ lo hspan, mul_div_eq_iff (Nat.two_pow_pos 64) hpos, hcard, hspan, Int.toNat_natCast]
    exact ceilDiv_sub_ceilDiv _ hpos k

end Sys2Proof.Machine
end

section
/-! CLAIM. The bounded 64-bit outputs (41_rangemap.md R155 to R158). -/

namespace Sys2Proof.Machine

/-- The mapping of an unsigned range in natural numbers. -/
theorem wordOfInt_map64_natCast (w : Word64) {lo hi : Nat} (h : lo ≤ hi) :
    wordOfInt (map64 w lo hi) = BitVec.ofNat 64 (lo + w.toNat * (hi - lo + 1) / 2 ^ 64) := by
  rw [wordOfInt, map64, ← BitVec.ofInt_natCast]
  push_cast [h]
  rfl

theorem wordOfInt_map64_zero (w : Word64) (hi : Int) :
    wordOfInt (map64 w 0 hi) = BitVec.ofInt 64 (w.toNat * (hi + 1) / 2 ^ 64) := by
  rw [wordOfInt, map64, sub_zero, zero_add]

/-- Settles O30: each command is a bounded output by the 64-bit mapping, which completes where its bounds are in order. -/
theorem boundedOutputs64 : Obligations.BoundedOutputs64 := by
  unfold Obligations.BoundedOutputs64
  intro rd ra rb s w ul uh sl sh
  refine ⟨hasEncoding_of_formatOf rfl, hasEncoding_of_formatOf rfl, hasEncoding_of_formatOf rfl,
    hasEncoding_of_formatOf rfl, fun hs => ⟨fun h => ?nu64r, ?nu64m, fun h => drawBounded_completes hs h, fun h => ?ni64m,
      fun h => drawBounded_refuses hs (Int.ofNat_lt.2 h), fun h => drawBounded_refuses hs h,
      fun h => drawBounded_refuses hs h⟩, fun hs => ?unseeded⟩
  case nu64r =>
    rw [← wordOfInt_map64_natCast _ h]
    exact drawBounded_completes hs (Int.ofNat_le.2 h)
  case nu64m =>
    have hmap := wordOfInt_map64_natCast s.nextDraw (Nat.zero_le ul)
    rw [Nat.sub_zero, zero_add] at hmap
    rw [← hmap]
    exact drawBounded_completes hs (Int.natCast_nonneg ul)
  case ni64m =>
    rw [← wordOfInt_map64_zero]
    exact drawBounded_completes hs h
  case unseeded =>
    rw [List.forall_mem_cons, List.forall_mem_cons, List.forall_mem_cons, List.forall_mem_singleton]
    exact ⟨drawBounded_unseeded hs, drawBounded_unseeded hs, drawBounded_unseeded hs, drawBounded_unseeded hs⟩

end Sys2Proof.Machine
end

section
/-! CLAIM. The bounded 32-bit outputs (41_rangemap.md R159 to R163). -/

namespace Sys2Proof.Machine

/-- `map32` is the number that R159 describes, its product being rounded once. -/
theorem mapsTo32_map32 (w : Word64) {lo hi : Int} (h : lo ≤ hi) (hspan : hi - lo < 2 ^ 53) :
    mapsTo32 w lo hi (map32 w lo hi) := by
  obtain ⟨n, hn⟩ := Int.eq_ofNat_of_zero_le (show 0 ≤ hi - lo + 1 by omega)
  obtain ⟨mag, hproduct, -⟩ := fMul_unitTrunc w (n := n) (by omega) (by omega)
  have hround : fMul (.fin false ((w >>> 11).toNat * unitPart)) (.fin false (n * fUnit)) = .fin false mag := by
    rw [← hproduct, unitTrunc_eq, fOfInt_natCast (by omega)]
  refine ⟨?_, map32_bounds w h hspan⟩
  rw [hn, Int.toNat_natCast, ← unitPart, ← fUnit, hround, map32, hn, hproduct, ifloor, Option.getD_some, add_sub_cancel_left]

theorem regU32_eq (s : State) (k : Reg) : s.regU32 k = ((s.reg k).toNat % 2 ^ 32 : Nat) := by
  rw [State.regU32, State.regLow, BitVec.toNat_setWidth]

theorem regS32_eq (s : State) (k : Reg) : s.regS32 k = ((s.reg k).extractLsb' 0 32).toInt := by
  rw [State.regS32, State.regLow, BitVec.setWidth_eq_extractLsb' (by decide)]

theorem regU32_bounds (s : State) (k : Reg) : 0 ≤ s.regU32 k ∧ s.regU32 k < 2 ^ 32 := by
  rw [regU32_eq]
  omega

theorem regS32_bounds (s : State) (k : Reg) : -2 ^ 31 ≤ s.regS32 k ∧ s.regS32 k < 2 ^ 31 :=
  ⟨BitVec.le_toInt _, BitVec.toInt_lt⟩

/-- A bounded output by the 32-bit mapping completes with the number that R159 describes. -/
theorem drawBounded_map32 {i : Instr} {rd : Reg} {s : State} {lo hi : Int} (hs : s.seeded = true) (h : lo ≤ hi)
    (hspan : hi - lo < 2 ^ 53) : ∃ n, mapsTo32 s.nextDraw lo hi n ∧
      drawBounded i rd lo hi map32 s = .next (s.drawnInto rd (BitVec.ofInt 64 n)) :=
  ⟨_, mapsTo32_map32 _ h hspan, drawBounded_completes hs h⟩

/-- Settles O31: each command is a bounded output by the 32-bit mapping of the low halves of its operands. -/
theorem boundedOutputs32 : Obligations.BoundedOutputs32 := by
  unfold Obligations.BoundedOutputs32
  intro rd ra rb s
  rw [← regU32_eq, ← regU32_eq, ← regS32_eq, ← regS32_eq]
  obtain ⟨hua, hua'⟩ := regU32_bounds s ra
  obtain ⟨hub, hub'⟩ := regU32_bounds s rb
  obtain ⟨hsa, hsa'⟩ := regS32_bounds s ra
  obtain ⟨hsb, hsb'⟩ := regS32_bounds s rb
  refine ⟨hasEncoding_of_formatOf rfl, hasEncoding_of_formatOf rfl, hasEncoding_of_formatOf rfl,
    hasEncoding_of_formatOf rfl, fun hs => ⟨fun h => drawBounded_map32 hs h (by omega), drawBounded_map32 hs hua (by omega),
      fun h => drawBounded_map32 hs h (by omega), fun h => drawBounded_map32 hs h (by omega),
      fun h => drawBounded_refuses hs h, fun h => drawBounded_refuses hs h, fun h => drawBounded_refuses hs h⟩,
    fun hs => ?unseeded⟩
  case unseeded =>
    rw [List.forall_mem_cons, List.forall_mem_cons, List.forall_mem_cons, List.forall_mem_singleton]
    exact ⟨drawBounded_unseeded hs, drawBounded_unseeded hs, drawBounded_unseeded hs, drawBounded_unseeded hs⟩

end Sys2Proof.Machine
end

section
/-! CLAIM. A bounded output that completes lies in its range (41_rangemap.md R164). -/

namespace Sys2Proof.Machine

theorem raise_ecode_ne_zero {s : State} (hs : s.ecode = 0) (e : Err) (i : Instr) : (s.raise e i).ecode ≠ 0 := by
  obtain ⟨hcode, -⟩ := e.code_bounds
  rwa [State.raise_of_clear hs, State.withError_ecode]

theorem reg_drawnInto (s : State) (rd : Reg) (v : Word64) : (s.drawnInto rd v).reg rd = v :=
  Vector.getElem_set_self _

/-- A bounded output that completes without an error leaves a number of its range, as its mapper gives it. -/
theorem drawBounded_in_range {i : Instr} {rd : Reg} {s t : State} {lo hi : Int} {mapper : Word64 → Int → Int → Int}
    (hs : s.ecode = 0) (ht : t.ecode = 0) (hmapper : lo ≤ hi → ∀ w, lo ≤ mapper w lo hi ∧ mapper w lo hi ≤ hi)
    (h : drawBounded i rd lo hi mapper s = .next t) : ∃ n, lo ≤ n ∧ n ≤ hi ∧ t.reg rd = wordOfInt n := by
  rcases drawBounded_cases h with ⟨-, rfl⟩ | ⟨-, -, rfl⟩ | ⟨-, hle, rfl⟩
  · exact absurd ht (raise_ecode_ne_zero hs _ _)
  · exact absurd ht (raise_ecode_ne_zero hs _ _)
  · obtain ⟨hlow, hhigh⟩ := hmapper hle s.nextDraw
    exact ⟨_, hlow, hhigh, reg_drawnInto ..⟩

theorem toNat_wordOfInt {n : Int} (hlow : 0 ≤ n) (hhigh : n < 2 ^ 64) : ((wordOfInt n).toNat : Int) = n := by
  rw [wordOfInt, BitVec.toNat_ofInt, Int.toNat_of_nonneg (Int.emod_nonneg n (by decide))]
  exact Int.emod_eq_of_lt hlow hhigh

theorem toInt_wordOfInt {n : Int} (hlow : -2 ^ 63 ≤ n) (hhigh : n < 2 ^ 63) : (wordOfInt n).toInt = n :=
  BitVec.toInt_ofInt_eq_self (by decide) hlow hhigh

section
variable {i : Instr} {rd : Reg} {s t : State} {lo hi : Int} {mapper : Word64 → Int → Int → Int}
  (hs : s.ecode = 0) (ht : t.ecode = 0) (hmapper : lo ≤ hi → ∀ w, lo ≤ mapper w lo hi ∧ mapper w lo hi ≤ hi)
include hs ht hmapper

theorem drawBounded_in_unsigned_range (hlo : 0 ≤ lo) (hhi : hi < 2 ^ 64) (h : drawBounded i rd lo hi mapper s = .next t) :
    lo ≤ (t.reg rd).toNat ∧ ((t.reg rd).toNat : Int) ≤ hi := by
  obtain ⟨n, hlow, hhigh, hreg⟩ := drawBounded_in_range hs ht hmapper h
  rw [hreg, toNat_wordOfInt (hlo.trans hlow) (hhigh.trans_lt hhi)]
  exact ⟨hlow, hhigh⟩

theorem drawBounded_in_signed_range (hlo : -2 ^ 63 ≤ lo) (hhi : hi < 2 ^ 63) (h : drawBounded i rd lo hi mapper s = .next t) :
    lo ≤ (t.reg rd).toInt ∧ (t.reg rd).toInt ≤ hi := by
  obtain ⟨n, hlow, hhigh, hreg⟩ := drawBounded_in_range hs ht hmapper h
  rw [hreg, toInt_wordOfInt (hlo.trans hlow) (hhigh.trans_lt hhi)]
  exact ⟨hlow, hhigh⟩

end

theorem regU_bounds (s : State) (k : Reg) : 0 ≤ s.regU k ∧ s.regU k < 2 ^ 64 :=
  ⟨Int.natCast_nonneg _, Int.ofNat_lt.2 (s.reg k).isLt⟩

theorem regS_bounds (s : State) (k : Reg) : -2 ^ 63 ≤ s.regS k ∧ s.regS k < 2 ^ 63 :=
  ⟨BitVec.le_toInt _, BitVec.toInt_lt⟩

/-- Settles O32: the mapped number lies in the range, and every number of the range is what its word reads as. -/
theorem boundedOutputsStayInRange : Obligations.BoundedOutputsStayInRange := by
  unfold Obligations.BoundedOutputsStayInRange
  intro rd ra rb s t hs ht
  obtain ⟨hua, hua'⟩ := regU_bounds s ra
  obtain ⟨hub, hub'⟩ := regU_bounds s rb
  obtain ⟨hsa, hsa'⟩ := regS_bounds s ra
  obtain ⟨hsb, hsb'⟩ := regS_bounds s rb
  obtain ⟨hla, hla'⟩ := regU32_bounds s ra
  obtain ⟨hlb, hlb'⟩ := regU32_bounds s rb
  obtain ⟨hlsa, hlsa'⟩ := regS32_bounds s ra
  obtain ⟨hlsb, hlsb'⟩ := regS32_bounds s rb
  have map64In {lo hi : Int} (h : lo ≤ hi) (w : Word64) := map64_bounds w h
  have map32In {lo hi : Int} (hspan : hi - lo < 2 ^ 53) (h : lo ≤ hi) (w : Word64) := map32_bounds w h hspan
  refine ⟨fun h => ?nu64r, fun h => ?nu64m, fun h => ?ni64r, fun h => ?ni64m, fun h => ?nu32r, fun h => ?nu32m, fun h => ?ni32r,
    fun h => ?ni32m⟩
  case nu64r =>
    obtain ⟨hlow, hhigh⟩ := drawBounded_in_unsigned_range hs ht map64In hua hub' h
    exact ⟨Int.ofNat_le.1 hlow, Int.ofNat_le.1 hhigh⟩
  case nu64m =>
    obtain ⟨-, hhigh⟩ := drawBounded_in_unsigned_range hs ht map64In le_rfl hua' h
    exact Int.ofNat_le.1 hhigh
  case ni64r => exact drawBounded_in_signed_range hs ht map64In hsa hsb' h
  case ni64m => exact drawBounded_in_signed_range hs ht map64In (by decide) hsa' h
  case nu32r =>
    obtain ⟨hlow, hhigh⟩ := drawBounded_in_unsigned_range hs ht (map32In (by omega)) hla (by omega) h
    exact ⟨Int.ofNat_le.1 hlow, Int.ofNat_le.1 hhigh⟩
  case nu32m =>
    obtain ⟨-, hhigh⟩ := drawBounded_in_unsigned_range hs ht (map32In (by omega)) le_rfl (by omega) h
    exact Int.ofNat_le.1 hhigh
  case ni32r =>
    have hrange := drawBounded_in_signed_range hs ht (map32In (by omega)) (by omega) (by omega) h
    exact hrange
  case ni32m =>
    have hrange := drawBounded_in_signed_range hs ht (map32In (by omega)) (by decide) (by omega) h
    exact hrange

end Sys2Proof.Machine
end

section
/-! CLAIM. The double outputs (41_rangemap.md R166 to R171). -/

namespace Sys2Proof.Machine

theorem maxOk_iff (mx : F64) : maxOk mx = true ↔ fFinite mx = true ∧ fLt mx fZero = false := by
  rw [maxOk, Bool.and_eq_true, Bool.not_eq_true']

theorem rangeOk_iff (mn mx : F64) : rangeOk mn mx = true ↔
    fFinite mn = true ∧ fFinite mx = true ∧ fLt mx mn = false ∧ fFinite (fSub mx mn) = true := by
  simp only [rangeOk, Bool.and_eq_true, Bool.not_eq_true', and_assoc]

section
variable (rd ra rb : Reg) (s : State)

theorem exec_nd : exec (.nd rd) s = drawDouble (.nd rd) rd true unitInc s := rfl

theorem exec_ndm : exec (.ndm rd ra) s =
    drawDouble (.ndm rd ra) rd (maxOk (s.regF ra)) (fun w => fMul (unitInc w) (s.regF ra)) s := rfl

theorem exec_ndr : exec (.ndr rd ra rb) s = drawDouble (.ndr rd ra rb) rd (rangeOk (s.regF ra) (s.regF rb))
    (fun w => fAdd (s.regF ra) (fMul (unitInc w) (fSub (s.regF rb) (s.regF ra)))) s := rfl

theorem exec_ntd : exec (.ntd rd) s = drawDouble (.ntd rd) rd true unitTrunc s := rfl

theorem exec_ntdm : exec (.ntdm rd ra) s =
    drawDouble (.ntdm rd ra) rd (maxOk (s.regF ra)) (fun w => fMul (unitTrunc w) (s.regF ra)) s := rfl

theorem exec_ntdr : exec (.ntdr rd ra rb) s = drawDouble (.ntdr rd ra rb) rd (rangeOk (s.regF ra) (s.regF rb))
    (fun w => fAdd (s.regF ra) (fMul (unitTrunc w) (fSub (s.regF rb) (s.regF ra)))) s := rfl

end

/-- Settles O34: each command is a double output, which completes where its operands pass the check of its rule. -/
theorem doubleOutputs : Obligations.DoubleOutputs := by
  unfold Obligations.DoubleOutputs
  intro rd ra rb s
  simp only [exec_nd, exec_ndm, exec_ndr, exec_ntd, exec_ntdm, exec_ntdr, ← maxOk_iff, ← rangeOk_iff]
  refine ⟨hasEncoding_of_formatOf rfl, hasEncoding_of_formatOf rfl, hasEncoding_of_formatOf rfl, hasEncoding_of_formatOf rfl,
    hasEncoding_of_formatOf rfl, hasEncoding_of_formatOf rfl, fun hs => ⟨drawDouble_completes hs rfl, drawDouble_completes hs rfl,
    fun hok => ⟨drawDouble_completes hs hok, drawDouble_completes hs hok⟩,
    fun hok => ⟨drawDouble_completes hs hok, drawDouble_completes hs hok⟩, fun hbad => ?maxRefused, fun hbad => ?rangeRefused⟩⟩
  case maxRefused =>
    have hok := Bool.eq_false_iff.2 hbad
    exact ⟨drawDouble_refuses hs hok, drawDouble_refuses hs hok⟩
  case rangeRefused =>
    have hok := Bool.eq_false_iff.2 hbad
    exact ⟨drawDouble_refuses hs hok, drawDouble_refuses hs hok⟩

end Sys2Proof.Machine
end

section
/-! CLAIM. A truncated double stays below its maximum (41_rangemap.md R170). -/

namespace Sys2Proof.Machine

/-- A number of fewer than `2^53` parts in `2^53`, times a magnitude above 2^-1022, rounds to less than that magnitude: the exact
product falls short of it by more than half a unit in the last place. -/
theorem roundedMag_part_mul_lt {k m p d : Nat} (hk : k < 2 ^ 53) (hm : 2 ^ 52 < m) (hp : 0 < p) (hd : d = 2 ^ 53 * p) :
    roundedMag (k * p * m) d < m := by
  have hgap : k * (p * m) + p * m ≤ 2 ^ 53 * (p * m) := by
    rw [← Nat.succ_mul]
    exact Nat.mul_le_mul_right _ hk
  have hunit : p * (2 ^ 52 + 1) ≤ p * m := Nat.mul_le_mul_left p hm
  have hnum : k * p * m = k * (p * m) := mul_assoc ..
  have htop : m * d = 2 ^ 53 * (p * m) := by rw [hd]; ring
  apply roundedMag_lt (by omega) <;> rw [hnum, htop] <;> omega

/-- A pattern that reads as a finite number reads as a representable one. -/
theorem fOfBits_of_fFinite {b : Word64} (h : fFinite (fOfBits b) = true) :
    ∃ mag, representable mag ∧ fOfBits b = .fin (patternNeg b) mag := by
  have hmax : patternExp b ≠ 2047 := by
    intro hmax
    rw [fOfBits_eq, if_pos hmax] at h
    split at h <;> cases h
  have hlt := patternExp_lt b
  obtain ⟨mag, hrep, hb, -⟩ := fOfBits_finite (b := b) (by omega)
  exact ⟨mag, hrep, hb⟩

/-- Settles O35: the rounded product stays below the maximum, which is finite, so it does not overflow. -/
theorem truncatedDoubleStaysBelowMax : Obligations.TruncatedDoubleStaysBelowMax := by
  unfold Obligations.TruncatedDoubleStaysBelowMax
  intro w b hfin hlarge
  obtain ⟨mag, ⟨-, -, -, -, hover⟩, hb⟩ := fOfBits_of_fFinite hfin
  rw [hb] at hlarge ⊢
  have hsigned := (fLt_iff (fKey_fin ..) (fKey_fin ..)).1 hlarge
  cases hneg : patternNeg b with
  | true =>
    rw [hneg, fSigned_false, fSigned_true] at hsigned
    omega
  | false =>
    rw [hneg, fSigned_false, fSigned_false, Nat.cast_lt] at hsigned
    have hmag := roundedMag_part_mul_lt (shiftRight_eleven_lt w) hsigned unitPart_pos fUnit_eq
    rw [unitTrunc_eq, fMul_fin_fUnit, fRound_eq, if_neg (not_le.2 (hmag.trans hover)), fLt_iff (fKey_fin ..) (fKey_fin ..)]
    exact Nat.cast_lt.2 hmag

end Sys2Proof.Machine
end

section
/-! CLAIM. The fixed-point outputs (41_rangemap.md R172 to R179). -/

namespace Sys2Proof.Machine

/-- A pair of words as one number in two's complement, the high word signed (R13). -/
theorem ofInt_halves (lo hi : Word64) : BitVec.ofInt 128 (hi.toInt * 2 ^ 64 + lo.toNat) = hi ++ lo := by
  have happend := BitVec.toInt_append (x := hi) (y := lo)
  rw [if_neg (by decide), mul_comm] at happend
  have hint : (hi ++ lo).toInt = hi.toInt * 2 ^ 64 + lo.toNat := happend
  rw [← hint]
  exact BitVec.ofInt_toInt

/-- Every number that fits in 128 bits is spelt by two words (R13). -/
theorem exists_halves {v : Int} (hlow : -2 ^ 127 ≤ v) (hhigh : v < 2 ^ 127) :
    ∃ lo hi : Word64, hi.toInt * 2 ^ 64 + lo.toNat = v := by
  refine ⟨BitVec.ofInt 64 v, BitVec.ofInt 64 (v / 2 ^ 64), ?_⟩
  rw [BitVec.toInt_ofInt_eq_self (by decide) (by omega) (by omega), BitVec.toNat_ofInt]
  omega

theorem regQ_bounds (s : State) (k : Reg) : -2 ^ 127 ≤ s.regQ k ∧ s.regQ k < 2 ^ 127 :=
  ⟨BitVec.le_toInt _, BitVec.toInt_lt⟩

/-! The scalings of R173. -/

theorem hpInc_bounds (w : Word64) {span : Int} (h : 0 ≤ span) : 0 ≤ hpInc w span ∧ hpInc w span ≤ span := by
  have hw : (w.toNat : Int) ≤ 2 ^ 64 - 1 := by have := w.isLt; omega
  exact ⟨Int.ediv_nonneg (mul_nonneg (Int.natCast_nonneg _) h) (by decide),
    Int.ediv_le_of_le_mul (by decide) ((mul_le_mul_of_nonneg_right hw h).trans_eq (mul_comm ..))⟩

theorem hpTrunc_lt (w : Word64) {span : Int} (h : 0 < span) : hpTrunc w span < span := by
  have hw : (w.toNat : Int) < 2 ^ 64 := Int.ofNat_lt.2 w.isLt
  exact Int.ediv_lt_of_lt_mul (by decide) ((mul_lt_mul_of_pos_right hw h).trans_eq (mul_comm ..))

theorem hpTrunc_bounds (w : Word64) {span : Int} (h : 0 ≤ span) : 0 ≤ hpTrunc w span ∧ hpTrunc w span ≤ span := by
  refine ⟨Int.ediv_nonneg (mul_nonneg (Int.natCast_nonneg _) h) (by decide), ?_⟩
  rcases h.eq_or_lt with rfl | hpos
  · rw [hpTrunc, mul_zero, Int.zero_ediv]
  · exact (hpTrunc_lt w hpos).le

theorem hpTrunc_unit (w : Word64) : hpTrunc w (2 ^ 64) = w.toNat := Int.mul_ediv_cancel _ (by decide)

theorem hpInc_unit_of_ne {w : Word64} (h : w ≠ BitVec.allOnes 64) : hpInc w (2 ^ 64) = w.toNat := by
  have hne : w.toNat ≠ 2 ^ 64 - 1 := fun heq => h (BitVec.eq_of_toNat_eq (by rw [heq, BitVec.toNat_allOnes]))
  have hlt := w.isLt
  rw [hpInc]
  omega

theorem hpInc_unit_allOnes : hpInc (BitVec.allOnes 64) (2 ^ 64) = 2 ^ 64 := by decide

/-! A fixed-point output and its pair. -/

section
variable {i : Instr} {rd : Reg} {ok : Bool} {value : Word64 → Int} {s : State}
  (hw : i.wellFormed = true) (hs : s.seeded = true) (ho : ok = true)
include hw hs ho

/-- The pair takes the two words that spell the value. -/
theorem drawFixed_halves {lo hi : Word64} (hv : value s.nextDraw = hi.toInt * 2 ^ 64 + lo.toNat) :
    drawFixed i rd ok value s = .next (s.drawnIntoPair rd lo hi) := by
  rw [drawFixed_completes hw hs ho, setPair_setGen_nextWord, hv, ofInt_halves, BitVec.extractLsb'_append_eq_right,
    BitVec.extractLsb'_append_eq_left]

/-- A value that fits goes to the pair whole. -/
theorem drawFixed_pair (hlow : -2 ^ 127 ≤ value s.nextDraw) (hhigh : value s.nextDraw < 2 ^ 127) : ∃ lo hi : Word64,
    drawFixed i rd ok value s = .next (s.drawnIntoPair rd lo hi) ∧ hi.toInt * 2 ^ 64 + lo.toNat = value s.nextDraw := by
  obtain ⟨lo, hi, hv⟩ := exists_halves hlow hhigh
  exact ⟨lo, hi, drawFixed_halves hw hs ho hv.symm, hv⟩

end

section
variable (rd ra rb : Reg) (s : State)

theorem exec_nh : exec (.nh rd) s = drawFixed (.nh rd) rd true (fun w => hpInc w (2 ^ 64)) s := rfl

theorem exec_nhm : exec (.nhm rd ra) s =
    drawFixed (.nhm rd ra) rd (decide (0 ≤ s.regQ ra)) (fun w => hpInc w (s.regQ ra)) s := rfl

theorem exec_nhr : exec (.nhr rd ra rb) s = drawFixed (.nhr rd ra rb) rd (decide (s.regQ ra ≤ s.regQ rb))
    (fun w => s.regQ ra + hpInc w (s.regQ rb - s.regQ ra)) s := rfl

theorem exec_nth : exec (.nth rd) s = drawFixed (.nth rd) rd true (fun w => hpTrunc w (2 ^ 64)) s := rfl

theorem exec_nthm : exec (.nthm rd ra) s =
    drawFixed (.nthm rd ra) rd (decide (0 ≤ s.regQ ra)) (fun w => hpTrunc w (s.regQ ra)) s := rfl

theorem exec_nthr : exec (.nthr rd ra rb) s = drawFixed (.nthr rd ra rb) rd (decide (s.regQ ra ≤ s.regQ rb))
    (fun w => s.regQ ra + hpTrunc w (s.regQ rb - s.regQ ra)) s := rfl

end

/-- Settles O37: each command is a fixed-point output, and its value lies between its bounds and so fits in the pair. -/
theorem fixedPointOutputs : Obligations.FixedPointOutputs := by
  unfold Obligations.FixedPointOutputs
  intro rd ra rb s
  obtain ⟨hqa, hqa'⟩ := regQ_bounds s ra
  obtain ⟨hqb, hqb'⟩ := regQ_bounds s rb
  simp only [exec_nh, exec_nhm, exec_nhr, exec_nth, exec_nthm, exec_nthr, ← pairOk_iff,
    List.forall_mem_cons]
  refine ⟨hasEncoding_of_formatOf rfl, hasEncoding_of_formatOf rfl, hasEncoding_of_formatOf rfl, hasEncoding_of_formatOf rfl,
    hasEncoding_of_formatOf rfl, hasEncoding_of_formatOf rfl, fun hd ha hb hs => ?seeded, fun hd ha hb hs => ?unseeded⟩
  all_goals
    have hda : (pairOk rd && pairOk ra) = true := Bool.and_eq_true_iff.2 ⟨hd, ha⟩
    have hdab : (pairOk rd && pairOk ra && pairOk rb) = true := Bool.and_eq_true_iff.2 ⟨hda, hb⟩
  case seeded =>
    have hzero : (0 : Word64).toInt = 0 := rfl
    refine ⟨fun hw => ?nh, fun hw => ?nhTop, ?nth, fun h => ?max, fun h => hpTrunc_lt _ h, fun h => ?range, fun h => ?below,
      fun h => ?maxRefused, fun h => ?rangeRefused⟩
    case nh => exact drawFixed_halves (i := .nh rd) hd hs rfl (by rw [hpInc_unit_of_ne hw, hzero, zero_mul, zero_add])
    case nhTop => exact drawFixed_halves (i := .nh rd) hd hs rfl (by rw [hw, hpInc_unit_allOnes]; rfl)
    case nth => exact drawFixed_halves (i := .nth rd) hd hs rfl (by rw [hpTrunc_unit, hzero, zero_mul, zero_add])
    case max =>
      obtain ⟨hinc, hinc'⟩ := hpInc_bounds s.nextDraw h
      obtain ⟨htrunc, htrunc'⟩ := hpTrunc_bounds s.nextDraw h
      exact ⟨drawFixed_pair hda hs (decide_eq_true h) (by omega) (by omega),
        drawFixed_pair hda hs (decide_eq_true h) (by omega) (by omega)⟩
    case range =>
      obtain ⟨hinc, hinc'⟩ := hpInc_bounds s.nextDraw (sub_nonneg.2 h)
      obtain ⟨htrunc, htrunc'⟩ := hpTrunc_bounds s.nextDraw (sub_nonneg.2 h)
      exact ⟨drawFixed_pair hdab hs (decide_eq_true h) (by omega) (by omega),
        drawFixed_pair hdab hs (decide_eq_true h) (by omega) (by omega),
        le_add_of_nonneg_right htrunc, le_add_of_nonneg_right hinc, le_sub_iff_add_le'.1 hinc'⟩
    case below => exact lt_sub_iff_add_lt'.1 (hpTrunc_lt s.nextDraw (sub_pos.2 h))
    case maxRefused =>
      have hbad := decide_eq_false (not_le.2 h)
      exact ⟨drawFixed_refuses hda hs hbad, drawFixed_refuses hda hs hbad⟩
    case rangeRefused =>
      have hbad := decide_eq_false (not_le.2 h)
      exact ⟨drawFixed_refuses hdab hs hbad, drawFixed_refuses hdab hs hbad⟩
  case unseeded =>
    exact ⟨drawFixed_unseeded hd hs, drawFixed_unseeded hda hs, drawFixed_unseeded hdab hs, drawFixed_unseeded hd hs,
      drawFixed_unseeded hda hs, drawFixed_unseeded hdab hs, fun _ h => absurd h List.not_mem_nil⟩

end Sys2Proof.Machine
end

section
/-! SUPPORT. Rounding is monotone, does not pass a representable number, and depends on the quotient alone (00_scope.md R12). -/

namespace Sys2Proof.Machine

theorem roundHalfEven_mul_right (num q : Nat) {c : Nat} (hc : 0 < c) :
    roundHalfEven (num * c) (q * c) = roundHalfEven num q := by
  have hlt : q * c < 2 * (num % q * c) ↔ q < 2 * (num % q) := by rw [← mul_assoc, Nat.mul_lt_mul_right hc]
  have heq : 2 * (num % q * c) = q * c ↔ 2 * (num % q) = q := by rw [← mul_assoc, Nat.mul_left_inj hc.ne']
  simp only [roundHalfEven, Nat.mul_div_mul_right _ _ hc, Nat.mul_mod_mul_right, hlt, heq]

theorem roundedMag_mul_right (num den : Nat) {c : Nat} (hc : 0 < c) :
    roundedMag (num * c) (den * c) = roundedMag num den := by
  have hexp : roundExp (num * c) (den * c) = roundExp num den := by
    rw [roundExp, Nat.mul_div_mul_right _ _ hc, roundExp]
  rw [roundedMag, roundedMag, quantum, quantum, hexp, mul_right_comm den c, roundHalfEven_mul_right _ _ hc]

theorem roundedMag_mul_self (num : Nat) {c : Nat} (hc : 0 < c) : roundedMag (num * c) c = roundedMag num 1 := by
  have hmul := roundedMag_mul_right num 1 hc
  rwa [one_mul] at hmul

theorem two_pow_le_roundedMag_one_iff (num e : Nat) :
    2 ^ 53 * 2 ^ e ≤ roundedMag num 1 ↔ (2 ^ 54 - 1) * 2 ^ e ≤ 2 * num := by
  rw [two_pow_le_roundedMag_iff num one_pos, one_mul]

/-- A quotient of exactly 53 bits before the point, times a power of two, is rounded to an integer times that power. -/
theorem roundedMag_mul_two_pow {num den : Nat} (e : Nat) (hlow : 2 ^ 52 * den ≤ num) (hhigh : num < 2 ^ 53 * den) :
    roundedMag (num * 2 ^ e) den = roundHalfEven num den * 2 ^ e := by
  have hden : 0 < den := by omega
  have hpos := Nat.two_pow_pos (52 + e)
  have hpow := Nat.two_pow_pos e
  have hle : 2 ^ (52 + e) ≤ num * 2 ^ e / den := by
    rw [Nat.le_div_iff_mul_le hden, pow_add, mul_right_comm]
    exact Nat.mul_le_mul_right _ hlow
  have hlt : num * 2 ^ e / den < 2 ^ (52 + e + 1) := by
    rw [Nat.div_lt_iff_lt_mul hden, add_right_comm, pow_add, mul_right_comm]
    exact Nat.mul_lt_mul_of_pos_right hhigh hpow
  have hexp : roundExp (num * 2 ^ e) den = e := by
    rw [roundExp, (Nat.log2_eq_iff (by omega)).2 ⟨hle, hlt⟩, Nat.add_sub_cancel_left]
  rw [roundedMag, quantum, hexp, roundHalfEven_mul_right _ _ hpow]

section
variable {num den m : Nat} (hden : 0 < den) (hm : representable m)
include hden hm

theorem roundedMag_le (h : num ≤ m * den) : roundedMag num den ≤ m := by
  obtain ⟨hnear, -⟩ := roundedMag_nearest num hden hm
  by_contra hlt
  have hgap := Nat.mul_lt_mul_of_pos_right (not_le.1 hlt) hden
  zify at h hgap
  omega

theorem le_roundedMag (h : m * den ≤ num) : m ≤ roundedMag num den := by
  obtain ⟨hnear, -⟩ := roundedMag_nearest num hden hm
  by_contra hlt
  have hgap := Nat.mul_lt_mul_of_pos_right (not_le.1 hlt) hden
  zify at h hgap
  omega

end

/-- A larger quotient, if it does not overflow, is not rounded to less. -/
theorem roundedMag_mono {num num' den : Nat} (hden : 0 < den) (h : num ≤ num')
    (hover : num' < (2 ^ 54 - 1) * 2 ^ 2044 * den) : roundedMag num den ≤ roundedMag num' den := by
  obtain ⟨-, hrep⟩ := fRound_finite false hden (h.trans_lt hover)
  obtain ⟨-, hrep'⟩ := fRound_finite false hden hover
  obtain ⟨hnear, -⟩ := roundedMag_nearest num hden hrep'
  obtain ⟨hnear', -⟩ := roundedMag_nearest num' hden hrep
  rcases h.eq_or_lt with rfl | hlt
  · exact le_rfl
  by_contra hgt
  have hgap := Nat.mul_lt_mul_of_pos_right (not_le.1 hgt) hden
  zify at hlt hgap
  omega

end Sys2Proof.Machine
end

section
/-! CLAIM. The unit doubles of a word (41_rangemap.md R165). -/

namespace Sys2Proof.Machine

/-! The multiplier of the inclusive unit double. -/

/-- The magnitude of `MINC`, that is of 2^-53 + 2^-105. -/
def incPart : Nat := (2 ^ 52 + 1) * 2 ^ 969

theorem incPart_pos : 0 < incPart := Nat.mul_pos (by decide) (pow_pos two_pos 969)

theorem incPart_eq : incPart * 2 ^ 52 = (2 ^ 52 + 1) * unitPart := by
  rw [incPart, unitPart, mul_assoc, ← pow_add]

theorem incPart_representable : representable incPart := representable_mul_two_pow (by decide) (by decide)

theorem fOfBits_mInc : fOfBits Config.mInc = .fin false incPart := by
  have hexp : patternExp Config.mInc = 970 := by decide
  have hfrac : patternFrac Config.mInc = 1 := by decide
  have hneg : patternNeg Config.mInc = false := by decide
  rw [fOfBits_normal (by rw [hexp]; decide) (by rw [hexp]; decide), hexp, hfrac, hneg, incPart]

/-- `MINC` is the binary64 number nearest to `1 / (2^53 - 1)`. -/
theorem roundedMag_fUnit_div : roundedMag fUnit (2 ^ 53 - 1) = incPart := by
  have hunit : fUnit = 2 ^ 105 * 2 ^ 969 := by rw [fUnit, ← pow_add]
  have hround : roundHalfEven (2 ^ 105) (2 ^ 53 - 1) = 2 ^ 52 + 1 := by decide
  rw [hunit, roundedMag_mul_two_pow 969 (by decide) (by decide), hround, incPart]

theorem incPart_lt_fOverflow : incPart < fOverflow := by
  obtain ⟨-, -, -, -, hlt⟩ := incPart_representable
  exact hlt

/-! The inclusive unit double by the top 53 bits of the word. -/

/-- The magnitude of the inclusive unit double of a word whose top 53 bits are `k`. -/
def incMag (k : Nat) : Nat := roundedMag (k * incPart) 1

/-- The product reaches the midpoint below 1.0 at the last two values of `k` only. -/
theorem fUnit_le_incMag_iff (k : Nat) : fUnit ≤ incMag k ↔ 2 ^ 53 - 2 ≤ k := by
  have hlow : (2 ^ 54 - 1) * unitPart * 2 ^ 52 = (2 ^ 54 - 1) * 2 ^ 52 * unitPart := Nat.mul_right_comm ..
  have hhigh : 2 * (k * incPart) * 2 ^ 52 = 2 * (k * (2 ^ 52 + 1)) * unitPart := by
    rw [mul_assoc, mul_assoc, incPart_eq, ← mul_assoc, ← mul_assoc, ← mul_assoc]
  have hscale : (2 ^ 54 - 1) * unitPart ≤ 2 * (k * incPart) ↔ (2 ^ 54 - 1) * 2 ^ 52 ≤ 2 * (k * (2 ^ 52 + 1)) := by
    rw [← Nat.mul_le_mul_right_iff (Nat.two_pow_pos 52), hlow, hhigh, Nat.mul_le_mul_right_iff unitPart_pos]
  have hmid := two_pow_le_roundedMag_one_iff (k * incPart) 1021
  rw [← unitPart, ← fUnit_eq, hscale] at hmid
  rw [incMag, hmid]
  omega

theorem mul_incPart_lt {k : Nat} (hk : k < 2 ^ 53) : k * incPart < (2 ^ 54 - 1) * 2 ^ 2044 * 1 := by
  have hpart : (2 ^ 52 + 1) * 2 ^ 969 ≤ 2 ^ 53 * 2 ^ 969 := Nat.mul_le_mul_right _ (by decide)
  have hpow : 2 ^ 53 * (2 ^ 53 * 2 ^ 969) ≤ 2 ^ 2044 := by
    rw [← pow_add, ← pow_add]
    exact pow_le_pow_right₀ one_le_two (by decide)
  calc k * incPart < 2 ^ 53 * incPart := Nat.mul_lt_mul_of_pos_right hk incPart_pos
    _ ≤ 2 ^ 53 * (2 ^ 53 * 2 ^ 969) := Nat.mul_le_mul_left _ hpart
    _ ≤ 2 ^ 2044 := hpow
    _ ≤ (2 ^ 54 - 1) * 2 ^ 2044 * 1 := by rw [mul_one]; exact Nat.le_mul_of_pos_left _ (by decide)

theorem incMag_mono {k l : Nat} (h : k ≤ l) (hl : l < 2 ^ 53) : incMag k ≤ incMag l :=
  roundedMag_mono one_pos (Nat.mul_le_mul_right _ h) (mul_incPart_lt hl)

/-- The largest product lies above 1.0 by less than half a unit in the last place. -/
theorem incMag_top : incMag (2 ^ 53 - 1) = fUnit := by
  have hnum : (2 ^ 53 - 1) * incPart * 2 ^ 53 = (2 ^ 53 - 1) * (2 ^ 52 + 1) * 2 ^ 1022 := by
    rw [incPart, ← mul_assoc, mul_assoc, ← pow_add]
  have hround : roundHalfEven ((2 ^ 53 - 1) * (2 ^ 52 + 1)) (2 ^ 53) = 2 ^ 52 := by decide
  rw [incMag, ← roundedMag_mul_self _ (Nat.two_pow_pos 53), hnum,
    roundedMag_mul_two_pow 1022 (by decide) (by decide), hround, fUnit, ← pow_add]

theorem incMag_le_fUnit {k : Nat} (hk : k < 2 ^ 53) : incMag k ≤ fUnit :=
  (incMag_mono (Nat.le_sub_one_of_lt hk) (by decide)).trans_eq incMag_top

theorem incMag_eq_fUnit_iff {k : Nat} (hk : k < 2 ^ 53) : incMag k = fUnit ↔ 2 ^ 53 - 2 ≤ k := by
  rw [← fUnit_le_incMag_iff]
  exact ⟨Eq.ge, (incMag_le_fUnit hk).antisymm⟩

/-- No product is rounded to less than `MINC` but that of 0. -/
theorem incMag_eq_zero_iff (k : Nat) : incMag k = 0 ↔ k = 0 := by
  constructor
  · intro hzero
    by_contra hne
    have hle : incPart ≤ incMag k := le_roundedMag one_pos incPart_representable
      (by rw [mul_one]; exact Nat.le_mul_of_pos_left _ (Nat.pos_of_ne_zero hne))
    have hpos := incPart_pos
    omega
  · rintro rfl
    have hrep : representable 0 := (representable_iff 0).2 (.inl (by decide))
    exact Nat.le_zero.1 (roundedMag_le one_pos hrep (by rw [zero_mul, zero_mul]))

theorem shiftRight_eleven (w : Word64) : (w >>> 11).toNat = w.toNat / 2 ^ 11 := by
  rw [BitVec.toNat_ushiftRight, Nat.shiftRight_eq_div_pow]

theorem fOne_eq : fOne = .fin false fUnit := rfl

theorem fUnit_lt_fOverflow : fUnit < fOverflow := pow_lt_pow_right₀ one_lt_two (by decide)

theorem unitInc_eq (w : Word64) : unitInc w = .fin false (incMag (w.toNat / 2 ^ 11)) := by
  have hlt := shiftRight_eleven_lt w
  have hmag : roundedMag ((w >>> 11).toNat * fUnit * incPart) fUnit = incMag (w.toNat / 2 ^ 11) := by
    rw [Nat.mul_right_comm, roundedMag_mul_self _ fUnit_pos, shiftRight_eleven, incMag]
  rw [unitInc, fOfInt_natCast hlt.le, fOfBits_mInc, fMul_fin_fUnit, fRound_eq, hmag, if_neg]
  · rw [Bool.xor_self]
  · exact not_le.2 ((incMag_le_fUnit (by rwa [← shiftRight_eleven])).trans_lt fUnit_lt_fOverflow)

/-- Settles O33: the inclusive unit double is the rounding of the product with `MINC`, which is monotone, and passes the midpoint
below 1.0 at the last two values. -/
theorem unitDoublesOfAWord : Obligations.UnitDoublesOfAWord := by
  unfold Obligations.UnitDoublesOfAWord
  have hlt (w : Word64) : w.toNat / 2 ^ 11 < 2 ^ 53 := by have := w.isLt; omega
  refine ⟨?mInc, fun w => ?trunc, fun w => ?inc, fun w => ?bounds, fun w => ?zero, fun w => ?one, fun w v h => ?mono⟩
  case mInc =>
    rw [fOfBits_mInc, fRound_eq, ← fUnit, roundedMag_fUnit_div, if_neg (not_le.2 incPart_lt_fOverflow)]
  case trunc => rw [unitTrunc_eq, shiftRight_eleven, unitPart]
  case inc => rw [unitInc, shiftRight_eleven]
  case bounds =>
    rw [unitInc_eq, fZero, fOne_eq, fLe_iff (fKey_fin ..) (fKey_fin ..), fLe_iff (fKey_fin ..) (fKey_fin ..)]
    exact ⟨Nat.cast_le.2 (Nat.zero_le _), Nat.cast_le.2 (incMag_le_fUnit (hlt w))⟩
  case zero => rw [unitInc_eq, fZero, F64.fin.injEq, incMag_eq_zero_iff, and_iff_right rfl]
  case one => rw [unitInc_eq, fOne_eq, F64.fin.injEq, incMag_eq_fUnit_iff (hlt w), and_iff_right rfl]
  case mono =>
    rw [unitInc_eq, unitInc_eq, fLe_iff (fKey_fin ..) (fKey_fin ..)]
    exact Nat.cast_le.2 (incMag_mono h (hlt v))

end Sys2Proof.Machine
end

section
/-! SUPPORT. The prime table (42_primality.md R200): the bitmap is primality up to 65535, and the table is the list of these
primes in ascending order. -/

namespace Sys2Proof.Machine

/-! The bitmap. -/

theorem trialPrime_iff_prime (n : Nat) : trialPrime n = true ↔ n.Prime := by
  simp only [trialPrime, Bool.and_eq_true, decide_eq_true_eq, List.all_eq_true, List.mem_range, Bool.or_eq_true,
    bne_iff_ne, Nat.prime_def_lt', Nat.dvd_iff_mod_eq_zero]
  refine and_congr_right fun _ => forall_congr' fun d => ?_
  rw [← not_le (a := 2), ← imp_iff_not_or]
  exact forall_comm

/-- A number is coprime to the product of the primes below 256 when none of them divides it. -/
theorem coprime_smallProduct_iff (n : Nat) : n.Coprime smallProduct ↔ ∀ p : Nat, p.Prime → p < 256 → ¬p ∣ n := by
  rw [smallProduct, ← List.prod_eq_foldl, Nat.coprime_list_prod_right_iff]
  simp only [List.mem_filter, List.mem_range, trialPrime_iff_prime, and_imp]
  refine forall_congr' fun p => ?_
  rw [forall_comm]
  exact forall₂_congr fun hp _ => by rw [Nat.coprime_comm, hp.coprime_iff_not_dvd]

/-- A composite number below `256^2` has a prime factor below 256. -/
theorem prime_iff_no_small_factor {n : Nat} (hlow : 256 ≤ n) (hhigh : n ≤ 65535) :
    n.Prime ↔ ∀ p : Nat, p.Prime → p < 256 → ¬p ∣ n := by
  constructor
  · intro hn p hp hlt hdvd
    rw [Nat.prime_dvd_prime_iff_eq hp hn] at hdvd
    omega
  · intro h
    by_contra hn
    have hsq := Nat.minFac_sq_le_self (by omega) hn
    have hlt : n.minFac < 256 := lt_of_pow_lt_pow_left₀ 2 (by omega) (by omega)
    exact h _ (Nat.minFac_prime (by omega)) hlt (Nat.minFac_dvd n)

/-- Up to 65535 the bitmap is primality (R200). -/
theorem isp_iff_prime {n : Nat} (h : n ≤ 65535) : isp n = true ↔ n.Prime := by
  rw [isp]
  split
  · exact trialPrime_iff_prime n
  · rename_i hlow
    rw [beq_iff_eq, ← Nat.coprime_iff_gcd_eq_one, coprime_smallProduct_iff, prime_iff_no_small_factor (by omega) h]

/-! The table. -/

/-- The entries of the table in the block of `len` numbers from `a` on. -/
def tableBlock (a len : Nat) : List Nat := (List.range' a len).filter isp

theorem tableBlock_add (a m n : Nat) : tableBlock a (m + n) = tableBlock a m ++ tableBlock (a + m) n := by
  rw [tableBlock, ← List.range'_append_1, List.filter_append]
  rfl

theorem primes_eq_tableBlock : primes = tableBlock 0 (2 ^ 16) := by
  rw [primes, List.range_eq_range']
  rfl

/-- The table is the entries below `k` and then the entries from `k` on. -/
theorem primes_eq_append {k : Nat} (h : k ≤ 65536) : primes = tableBlock 0 k ++ tableBlock k (65536 - k) := by
  rw [primes_eq_tableBlock, show 2 ^ 16 = k + (65536 - k) by omega, tableBlock_add, zero_add]

theorem mem_primes_iff {p : Nat} : p ∈ primes ↔ p ≤ 65535 ∧ p.Prime := by
  rw [primes, Config.primeLimit, List.mem_filter, List.mem_range, Nat.lt_succ_iff]
  exact and_congr_right isp_iff_prime

theorem primes_ascending : primes.Pairwise (· < ·) := List.pairwise_lt_range.filter _

/-- How many entries of the table lie in the block of `2^k` numbers from `a` on, counted by halving the block. -/
def blockCount : Nat → Nat → Nat
  | 0, a => (isp a).toNat
  | k + 1, a => blockCount k a + blockCount k (a + 2 ^ k)

theorem tableBlock_length (k a : Nat) : (tableBlock a (2 ^ k)).length = blockCount k a := by
  induction k generalizing a with
  | zero =>
    show ((List.range' a 1).filter isp).length = (isp a).toNat
    rw [List.range'_one]
    cases h : isp a <;> simp [h]
  | succ k ih => rw [Nat.pow_succ, Nat.mul_two, tableBlock_add, List.length_append, ih, ih, blockCount]

/-- There are 6542 primes up to 65535 (R9); the kernel counts them. -/
theorem primes_length : primes.length = 6542 := by
  have hcount : blockCount 16 0 = 6542 := by decide +kernel
  rw [primes_eq_tableBlock, tableBlock_length, hcount]

theorem tableBlock_first : tableBlock 0 30 = [2, 3, 5, 7, 11, 13, 17, 19, 23, 29] := by decide +kernel

theorem tableBlock_last : tableBlock 65497 39 = [65497, 65519, 65521] := by decide +kernel

/-- The largest entry of the table is 65521 (R9). -/
theorem le_of_mem_primes {p : Nat} (h : p ∈ primes) : p ≤ 65521 := by
  rw [primes_eq_append (k := 65497) (by decide), tableBlock_last, List.mem_append] at h
  rcases h with h | h
  · rw [tableBlock, List.mem_filter, List.mem_range'_1] at h
    omega
  · simp only [List.mem_cons, List.not_mem_nil, or_false] at h
    omega

end Sys2Proof.Machine
end

section
/-! CLAIM. The prime table (42_primality.md R200). -/

namespace Sys2Proof.Machine

/-- Settles O38: the table by its blocks, and its length by a count. -/
theorem primeTable : Obligations.PrimeTable := by
  unfold Obligations.PrimeTable
  refine ⟨fun _ => mem_primes_iff, primes_ascending, primes_length, ?first, ?entry54, ?last, fun n hn => ?bitmap, ?zero,
    ?one, ?two⟩
  case first =>
    rw [primes_eq_append (k := 30) (by decide), tableBlock_first]
    rfl
  case entry54 =>
    have hentry : (tableBlock 0 258)[54]? = some 257 := by decide +kernel
    rw [primes_eq_append (k := 258) (by decide), List.getElem?_append_left (List.getElem?_eq_some_iff.1 hentry).1, hentry]
  case last =>
    have happend := primes_eq_append (k := 65497) (by decide)
    rw [tableBlock_last] at happend
    have hlength := congrArg List.length happend
    rw [primes_length, List.length_append] at hlength
    rw [happend, List.drop_left' (by simpa using hlength.symm)]
  case bitmap => rw [isp_iff_prime hn, mem_primes_iff, and_iff_right hn]
  case zero => exact Bool.eq_false_iff.2 fun h => Nat.not_prime_zero ((isp_iff_prime (by decide)).1 h)
  case one => exact Bool.eq_false_iff.2 fun h => Nat.not_prime_one ((isp_iff_prime (by decide)).1 h)
  case two => exact (isp_iff_prime (by decide)).2 Nat.prime_two

end Sys2Proof.Machine
end

section
/-! CLAIM. `WITNESS` (42_primality.md R201, R202). -/

namespace Sys2Proof.Machine

/-- The index is the 32-bit mapping of the word, which is not negative (R201). -/
theorem witnessIndex_eq (w : Word64) : (witnessIndex w : Int) = map32 w 0 6541 := by
  obtain ⟨hnonneg, -⟩ := map32_bounds w (show (0 : Int) ≤ 6541 by decide) (by decide)
  exact Int.toNat_of_nonneg hnonneg

/-- The index that a word selects is in the table (R201). -/
theorem witnessIndex_lt (w : Word64) : witnessIndex w < primes.length := by
  obtain ⟨-, hle⟩ := map32_bounds w (show (0 : Int) ≤ 6541 by decide) (by decide)
  rw [← witnessIndex_eq] at hle
  rw [primes_length]
  omega

theorem getElem?_witnessIndex (w : Word64) : primes[witnessIndex w]? = some (witnessOf w) := by
  rw [witnessOf, List.getD_eq_getElem _ _ (witnessIndex_lt w), List.getElem?_eq_getElem]

theorem witnessOf_mem_primes (w : Word64) : witnessOf w ∈ primes := List.mem_of_getElem? (getElem?_witnessIndex w)

theorem witnessOf_prime (w : Word64) : (witnessOf w).Prime := by
  obtain ⟨-, hprime⟩ := mem_primes_iff.1 (witnessOf_mem_primes w)
  exact hprime

theorem exec_witness (rd : Reg) (s : State) : exec (.witness rd) s =
    drawCommand (.witness rd) true s fun w t => t.setReg rd (BitVec.ofNat 64 (witnessOf w)) := rfl

/-- Settles O39: the index is the 32-bit mapping of the word drawn, and every entry of the table is a prime. -/
theorem witnessIsATablePrime : Obligations.WitnessIsATablePrime := by
  unfold Obligations.WitnessIsATablePrime
  refine ⟨fun _ => hasEncoding_of_formatOf rfl, fun rd s => ?_⟩
  rw [exec_witness]
  refine ⟨fun hs => ?drawn, fun hs => drawCommand_unseeded hs⟩
  have hprime := witnessOf_prime s.nextDraw
  refine ⟨witnessIndex s.nextDraw, witnessOf s.nextDraw, ?mapped, getElem?_witnessIndex _, hprime, hprime.two_le,
    le_of_mem_primes (witnessOf_mem_primes _), ?state⟩
  case mapped =>
    rw [witnessIndex_eq]
    exact mapsTo32_map32 _ (by decide) (by decide)
  case state => rw [drawCommand_completes hs rfl, setReg_setGen_nextWord]

end Sys2Proof.Machine
end

section
/-! CLAIM. A round of the Miller-Rabin test (42_primality.md R204). -/

namespace Sys2Proof.Machine

/-- Squaring computes the power. -/
theorem powMod_eq {n fuel d : Nat} (a : Nat) (h : d < 2 ^ fuel) : powMod n fuel a d = a ^ d % n := by
  induction fuel generalizing a d with
  | zero =>
    obtain rfl : d = 0 := by omega
    rfl
  | succ fuel ih =>
    have hrest : powMod n fuel (a * a % n) (d / 2) = a ^ (2 * (d / 2)) % n := by
      rw [ih _ (by omega), ← Nat.pow_mod, pow_mul, sq]
    rw [powMod, hrest]
    split
    · rename_i hodd
      rw [Nat.mul_mod_mod, ← pow_succ', show 2 * (d / 2) + 1 = d by omega]
    · rw [show 2 * (d / 2) = d by omega]

theorem squaringsPass_succ (n k x : Nat) : squaringsPass n (k + 1) x = true ↔
    x ^ 2 % n = n - 1 ∨ squaringsPass n k (x ^ 2 % n) = true := by
  rw [squaringsPass, ← sq, Bool.if_true_left, Bool.or_eq_true, decide_eq_true_eq]

/-- The squarings pass when one of them gives `n - 1` (R204). -/
theorem squaringsPass_iff (n k x : Nat) : squaringsPass n k x = true ↔ ∃ j < k, x ^ 2 ^ (j + 1) % n = n - 1 := by
  induction k generalizing x with
  | zero => simp [squaringsPass]
  | succ k ih =>
    have hsq (j : Nat) : (x ^ 2 % n) ^ 2 ^ (j + 1) % n = x ^ 2 ^ (j + 1 + 1) % n := by
      rw [← Nat.pow_mod, ← pow_mul, ← pow_succ']
    rw [squaringsPass_succ, ih, Nat.exists_lt_succ_left]
    simp only [hsq, zero_add, pow_one]

/-- Settles O40: the first power is `a ^ d`, and squaring doubles its exponent. -/
theorem millerRabinRound : Obligations.MillerRabinRound := by
  unfold Obligations.MillerRabinRound
  intro n e d a hlow hhigh hn hodd he
  obtain ⟨k, rfl⟩ := Nat.exists_eq_add_of_le' he
  have hd : d < 2 ^ 64 := by
    have := Nat.le_mul_of_pos_left d (Nat.two_pow_pos (k + 1))
    omega
  have hsq (j : Nat) : (a ^ d % n) ^ 2 ^ (j + 1) % n = a ^ (2 ^ (j + 1) * d) % n := by
    rw [← Nat.pow_mod, ← pow_mul, mul_comm]
  rw [roundPasses, powMod_eq a hd, Bool.if_true_left, Bool.or_eq_true, decide_eq_true_eq, squaringsPass_iff,
    Nat.exists_lt_succ_left, ← or_assoc, Nat.add_sub_cancel, pow_zero, one_mul]
  simp only [hsq]

end Sys2Proof.Machine
end

section
/-! SUPPORT. The parts of the primality tester (42_primality.md R203 to R206): the steps that need no witness, the power of two
in `n - 1`, and the rounds with the words they draw. -/

namespace Sys2Proof.Machine

/-! Steps 1 to 3. -/

theorem hasTableFactor_iff {n : Int} (h : 0 ≤ n) :
    hasTableFactor n.toNat = true ↔ ∃ p : Nat, p.Prime ∧ p ≤ 65535 ∧ (p : Int) ∣ n := by
  rw [hasTableFactor, List.any_eq_true]
  refine exists_congr fun p => ?_
  rw [mem_primes_iff, beq_iff_eq, ← Nat.dvd_iff_mod_eq_zero, ← Int.natCast_dvd_natCast, Int.toNat_of_nonneg h]
  tauto

theorem decideWithoutWitness_of_nonpos {n : Int} (h : n ≤ 0) : decideWithoutWitness n = some false := if_pos h

theorem decideWithoutWitness_of_le {n : Int} (hpos : 0 < n) (h : n ≤ 65535) :
    decideWithoutWitness n = some (isp n.toNat) := by
  rw [decideWithoutWitness, if_neg (not_le.2 hpos)]
  exact if_pos h

section
variable {n : Int} (h : 65535 < n)
include h

theorem decideWithoutWitness_of_gt :
    decideWithoutWitness n = if hasTableFactor n.toNat = true then some false else none := by
  rw [decideWithoutWitness, if_neg (by omega)]
  exact if_neg (not_le.2 h)

theorem decideWithoutWitness_of_factor (hf : ∃ p : Nat, p.Prime ∧ p ≤ 65535 ∧ (p : Int) ∣ n) :
    decideWithoutWitness n = some false := by
  rw [decideWithoutWitness_of_gt h, if_pos ((hasTableFactor_iff (by omega)).2 hf)]

theorem decideWithoutWitness_of_no_factor (hf : ¬∃ p : Nat, p.Prime ∧ p ≤ 65535 ∧ (p : Int) ∣ n) :
    decideWithoutWitness n = none := by
  rw [decideWithoutWitness_of_gt h, if_neg (mt (hasTableFactor_iff (by omega)).1 hf)]

end

/-! The power of two in `n - 1`. -/

theorem splitTwos_eq {e d fuel : Nat} (hodd : d % 2 = 1) (h : 2 ^ e * d < 2 ^ fuel) : splitTwos fuel (2 ^ e * d) = (e, d) := by
  induction e generalizing fuel with
  | zero =>
    rw [pow_zero, one_mul]
    cases fuel with
    | zero => rfl
    | succ fuel => rw [splitTwos, if_neg (by omega)]
  | succ e ih =>
    rw [pow_succ, mul_right_comm] at *
    cases fuel with
    | zero =>
      have := Nat.mul_pos (Nat.two_pow_pos e) (by omega : 0 < d)
      omega
    | succ fuel => rw [splitTwos, if_pos (Nat.mul_mod_left _ 2), Nat.mul_div_cancel _ two_pos, ih (by omega)]

/-! The rounds. -/

theorem wordDrawn_succ (g : Gen) (k : Nat) : wordDrawn g (k + 1) = wordDrawn (nextWord g).2 k := by
  rw [wordDrawn, drawWords_succ, List.getD_cons_succ, wordDrawn]

section
variable {n e d : Nat}

theorem primeRounds_succ (m : Nat) (g : Gen) : primeRounds n e d (m + 1) g =
    if roundPasses n e d (witnessOf (wordDrawn g 0)) = true then primeRounds n e d m (nextWord g).2
    else (false, (nextWord g).2) := rfl

/-- Where every round passes, the answer is 1 and one word is drawn per round. -/
theorem primeRounds_of_passes {m : Nat} {g : Gen}
    (h : ∀ k < m, roundPasses n e d (witnessOf (wordDrawn g k)) = true) :
    primeRounds n e d m g = (true, (drawWords m g).2) := by
  induction m generalizing g with
  | zero => rfl
  | succ m ih =>
    rw [primeRounds_succ, if_pos (h 0 m.succ_pos), drawWords_succ]
    refine ih fun k hk => ?_
    rw [← wordDrawn_succ]
    exact h (k + 1) (Nat.succ_lt_succ hk)

/-- The first round that fails ends the test, and no word is drawn after it. -/
theorem primeRounds_of_fails {m k : Nat} {g : Gen} (hk : k < m)
    (hpass : ∀ j < k, roundPasses n e d (witnessOf (wordDrawn g j)) = true)
    (hfail : roundPasses n e d (witnessOf (wordDrawn g k)) = false) :
    primeRounds n e d m g = (false, (drawWords (k + 1) g).2) := by
  induction k generalizing m g with
  | zero =>
    obtain ⟨m, rfl⟩ := Nat.exists_eq_add_of_le' hk
    rw [primeRounds_succ, if_neg (Bool.eq_false_iff.1 hfail)]
    rfl
  | succ k ih =>
    obtain ⟨m, rfl⟩ := Nat.exists_eq_add_of_le' (Nat.zero_lt_of_lt hk)
    rw [primeRounds_succ, if_pos (hpass 0 k.succ_pos), drawWords_succ]
    rw [wordDrawn_succ] at hfail
    refine ih (by omega) (fun j hj => ?_) hfail
    rw [← wordDrawn_succ]
    exact hpass (j + 1) (Nat.succ_lt_succ hj)

end

end Sys2Proof.Machine
end

section
/-! CLAIM. The steps of `ISPRIME` (42_primality.md R205, R206). -/

namespace Sys2Proof.Machine

section
variable {rd ra : Reg} {rounds : BitVec 12} {s : State}

theorem exec_isprime : exec (.isprime rd ra rounds) s = execIsprime rd ra rounds s := rfl

theorem exec_isprime_decided {b : Bool} (h : decideWithoutWitness (s.regS ra) = some b) :
    exec (.isprime rd ra rounds) s = .next (s.onlyReg rd (answerWord b)) := by
  simp only [exec_isprime, execIsprime, h]
  rfl

/-- Where steps 1 to 3 do not decide, rounds without a seed raise (R206). -/
theorem exec_isprime_unseeded (h : decideWithoutWitness (s.regS ra) = none) (hr : rounds ≠ 0) (hs : s.seeded = false) :
    exec (.isprime rd ra rounds) s = .next (s.raise .unseeded (.isprime rd ra rounds)) := by
  have hok : (s.seeded || rounds == 0) = false := by rw [hs, Bool.false_or, beq_eq_false_iff_ne.2 hr]
  simp only [exec_isprime, execIsprime, h, check_of_false hok]

/-- Where steps 1 to 3 do not decide, the rounds answer, with `n - 1 = 2^e * d` (R205). -/
theorem exec_isprime_rounds {e d : Nat} {run : Bool × Gen} (h : decideWithoutWitness (s.regS ra) = none)
    (hok : s.seeded = true ∨ rounds = 0) (hsplit : splitTwos 64 ((s.regS ra).toNat - 1) = (e, d))
    (hrun : primeRounds (s.regS ra).toNat e d rounds.toNat s.gen = run) :
    exec (.isprime rd ra rounds) s = .next { s with gen := run.2, r := s.r.set rd (answerWord run.1) } := by
  have hok : (s.seeded || rounds == 0) = true := by rwa [Bool.or_eq_true, beq_iff_eq]
  simp only [exec_isprime, execIsprime, h, check_of_true hok, hsplit, hrun]
  rfl

end

theorem answerWord_of_iff {b : Bool} {p : Prop} [Decidable p] (h : b = true ↔ p) : answerWord b = if p then 1 else 0 :=
  if_congr h rfl rfl

/-- Settles O41: steps 1 to 3 by what `decideWithoutWitness` answers, and step 4 by the rounds. -/
theorem isprimeRunsItsSteps : Obligations.IsprimeRunsItsSteps := by
  unfold Obligations.IsprimeRunsItsSteps
  intro rd ra rounds s n i hasFactor
  refine ⟨hasEncoding_of_formatOf rfl, fun hn => exec_isprime_decided (decideWithoutWitness_of_nonpos hn),
    fun hpos hn => ?small, fun hn hf => exec_isprime_decided (decideWithoutWitness_of_factor hn hf),
    fun hn hf hr => ?noRounds,
    fun hn hf hr hs => exec_isprime_unseeded (decideWithoutWitness_of_no_factor hn hf) hr hs,
    fun hn hf hs e d hsplit hodd => ?rounds⟩
  case small =>
    rw [← answerWord_of_iff (isp_iff_prime (n := n.toNat) (by omega))]
    exact exec_isprime_decided (decideWithoutWitness_of_le hpos hn)
  case noRounds =>
    exact exec_isprime_rounds (run := (true, s.gen)) (decideWithoutWitness_of_no_factor hn hf) (.inr hr) rfl (by rw [hr]; rfl)
  case rounds =>
    have hlt : n < 2 ^ 63 := BitVec.toInt_lt
    have hfuel : 2 ^ e * d < 2 ^ 64 := by omega
    have hed : splitTwos 64 (n.toNat - 1) = (e, d) := by rw [hsplit, splitTwos_eq hodd hfuel]
    have hnone := decideWithoutWitness_of_no_factor hn hf
    exact ⟨fun hpass => exec_isprime_rounds hnone (.inl hs) hed (primeRounds_of_passes hpass),
      fun k hk hpass hfail => exec_isprime_rounds hnone (.inl hs) hed (primeRounds_of_fails hk hpass hfail)⟩

end Sys2Proof.Machine
end

section
/-! CLAIM. `ISPRIME` answers 1 for every prime (42_primality.md R207). -/

namespace Sys2Proof.Machine

/-- Where a power of two as exponent gives 1, the squarings from the base on start at 1 or come by -1. -/
theorem eq_one_or_exists_eq_neg_one {R : Type} [Ring R] [NoZeroDivisors R] {x : R} {e : Nat} (h : x ^ 2 ^ e = 1) :
    x = 1 ∨ ∃ j < e, x ^ 2 ^ j = -1 := by
  induction e with
  | zero => exact .inl (by rwa [pow_zero, pow_one] at h)
  | succ e ih =>
    rw [pow_succ, pow_mul, sq, mul_self_eq_one_iff] at h
    rcases h with h | h
    · exact (ih h).imp_right fun ⟨j, hj, hx⟩ => ⟨j, hj.trans e.lt_succ_self, hx⟩
    · exact .inr ⟨e, e.lt_succ_self, h⟩

/-- A remainder by `p`, as an equation between residues. -/
theorem mod_eq_iff_cast {p x y : Nat} (hy : y < p) : x % p = y ↔ (x : ZMod p) = y := by
  rw [ZMod.natCast_eq_natCast_iff', Nat.mod_eq_of_lt hy]

/-- A prime passes a round for every base that it does not divide, by Fermat's little theorem (R204, R207). -/
theorem roundPasses_of_prime {p e d a : Nat} (hp : p.Prime) (hlow : 65535 < p) (hhigh : p < 2 ^ 63)
    (hsplit : p - 1 = 2 ^ e * d) (hodd : d % 2 = 1) (he : 1 ≤ e) (ha : ¬p ∣ a) : roundPasses p e d a = true := by
  have := Fact.mk hp
  have hne : (a : ZMod p) ≠ 0 := mt (ZMod.natCast_eq_zero_iff a p).1 ha
  have hfermat : ((a : ZMod p) ^ d) ^ 2 ^ e = 1 := by
    rw [← pow_mul, mul_comm, ← hsplit, ZMod.pow_card_sub_one_eq_one hne]
  have hneg : ((p - 1 : Nat) : ZMod p) = -1 := by
    rw [Nat.cast_sub hp.one_le, ZMod.natCast_self, zero_sub, Nat.cast_one]
  rw [millerRabinRound p e d a hlow hhigh hsplit hodd he, mod_eq_iff_cast hp.one_lt, Nat.cast_pow, Nat.cast_one]
  refine (eq_one_or_exists_eq_neg_one hfermat).imp_right fun ⟨j, hj, hx⟩ => ⟨j, hj, ?_⟩
  rw [mod_eq_iff_cast (by omega), hneg, Nat.cast_pow, mul_comm, pow_mul, hx]

/-- The bases are primes of the table, so a number above the table divides none of them. -/
theorem not_dvd_witnessOf {n : Nat} (h : 65535 < n) (w : Word64) : ¬n ∣ witnessOf w := fun hdvd => by
  have hle := Nat.le_of_dvd (witnessOf_prime w).pos hdvd
  have := le_of_mem_primes (witnessOf_mem_primes w)
  omega

theorem no_table_factor_of_prime {n : Nat} (hn : n.Prime) (h : 65535 < n) :
    ¬∃ p : Nat, p.Prime ∧ p ≤ 65535 ∧ (p : Int) ∣ n := by
  rintro ⟨p, hp, hle, hdvd⟩
  have := (Nat.prime_dvd_prime_iff_eq hp hn).1 (Int.natCast_dvd_natCast.1 hdvd)
  omega

theorem exists_two_pow_mul_odd_of_prime {p : Nat} (hp : p.Prime) (h : 65535 < p) :
    ∃ e d, p - 1 = 2 ^ e * d ∧ d % 2 = 1 ∧ 1 ≤ e := by
  obtain ⟨e, d, hodd, hsplit⟩ := Nat.exists_eq_two_pow_mul_odd (n := p - 1) (by omega)
  refine ⟨e, d, hsplit, Nat.odd_iff.1 hodd, Nat.one_le_iff_ne_zero.2 ?_⟩
  rintro rfl
  obtain ⟨k, rfl⟩ := hp.odd_of_ne_two (by omega)
  obtain ⟨l, rfl⟩ := hodd
  omega

theorem reg_onlyReg (s : State) (rd : Reg) (v : Word64) : (s.onlyReg rd v).reg rd = v := Vector.getElem_set_self _

/-- Settles O42: up to 65535 the table answers, above it every round passes. -/
theorem primeIsAlwaysAnsweredOne : Obligations.PrimeIsAlwaysAnsweredOne := by
  unfold Obligations.PrimeIsAlwaysAnsweredOne
  intro rd ra rounds s p hs hp hn
  obtain ⟨-, -, hsmall, -, -, -, hrounds⟩ := isprimeRunsItsSteps rd ra rounds s
  rw [hn, Int.toNat_natCast] at hsmall hrounds
  rcases le_or_gt p 65535 with hle | hgt
  · have h := hsmall (Int.natCast_pos.2 hp.pos) (Nat.cast_le.2 hle)
    rw [if_pos hp] at h
    exact ⟨_, h, reg_onlyReg s rd 1⟩
  · have hhigh : (p : Int) < 2 ^ 63 := hn ▸ BitVec.toInt_lt
    obtain ⟨e, d, hsplit, hodd, he⟩ := exists_two_pow_mul_odd_of_prime hp hgt
    obtain ⟨hanswer, -⟩ := hrounds (Nat.cast_lt.2 hgt) (no_table_factor_of_prime hp hgt) hs e d hsplit hodd
    exact ⟨_, hanswer fun k _ => roundPasses_of_prime hp hgt (by omega) hsplit hodd he (not_dvd_witnessOf hgt _),
      reg_onlyReg (s.setGen _) rd 1⟩

end Sys2Proof.Machine
end

section
/-! CLAIM. The octave blender (43_octave_perlin.md R223). -/

namespace Sys2Proof.Machine

theorem fOfInt_two : fOfInt 2 = fTwo := by decide +kernel

theorem octaveCoords_succ (c : List F64) (k : Nat) :
    octaveCoords c (k + 1) = (octaveCoords c k).map fun v => fMul v fTwo := by
  rw [octaveCoords, octaveCoords, repeatTimes_eq_iterate, repeatTimes_eq_iterate, Function.iterate_succ_apply']

theorem placeCoords_length (x off scl : List F64) :
    (placeCoords x off scl).length = min x.length (min off.length scl.length) := by
  rw [placeCoords, List.length_zipWith, List.length_zipWith, min_assoc]

theorem getElem?_placeCoords {x off scl : List F64} {a : Nat} (hx : a < x.length) (ho : a < off.length)
    (hs : a < scl.length) : (placeCoords x off scl)[a]? = some (fMul (fAdd x[a] off[a]) scl[a]) := by
  have hlen : a < (placeCoords x off scl).length := by rw [placeCoords_length]; omega
  rw [List.getElem?_eq_getElem hlen]
  simp only [placeCoords, List.getElem_zipWith]

/-! The amplitudes: each half of the one before it, the first one half of the 2.0 that the loop starts from. -/

theorem fMul_two_pow_fHalf {n : Nat} (h : n ≤ 2045) : fMul (.fin false (2 ^ (n + 1))) fHalf = .fin false (2 ^ n) := by
  have hexact : 2 ^ (n + 1) * 2 ^ 1073 = 2 ^ n * fUnit := by
    rw [fUnit, ← pow_add, ← pow_add]
  have hrep : representable (2 ^ n) := by
    rw [← one_mul (2 ^ n)]
    exact representable_mul_two_pow (by decide) h
  rw [fHalf, fMul_fin_fUnit, hexact]
  exact fRound_of_exact _ fUnit_pos hrep

theorem octaveAmp_of_le {k : Nat} (h : k ≤ 1074) : octaveAmp k = .fin false (2 ^ (1074 - k)) := by
  rw [octaveAmp, Nat.pow_div h two_pos]

theorem octaveAmp_of_gt {k : Nat} (h : 1074 < k) : octaveAmp k = fZero := by
  rw [octaveAmp, Nat.div_eq_of_lt (Nat.pow_lt_pow_right (by decide) h), fZero]

/-- Half of 2^-1074 is a tie, which goes to 0. -/
theorem fMul_octaveAmp_fHalf (k : Nat) : fMul (octaveAmp k) fHalf = octaveAmp (k + 1) := by
  rcases lt_trichotomy k 1074 with h | rfl | h
  · obtain ⟨n, hn⟩ := Nat.exists_eq_add_of_lt h
    rw [octaveAmp_of_le h.le, octaveAmp_of_le h, show 1074 - k = n + 1 by omega, show 1074 - (k + 1) = n by omega]
    exact fMul_two_pow_fHalf (by omega)
  · rw [octaveAmp_of_le le_rfl, octaveAmp_of_gt (by decide)]
    decide +kernel
  · rw [octaveAmp_of_gt h, octaveAmp_of_gt (by omega)]
    decide +kernel

theorem fMul_fTwo_fHalf : fMul fTwo fHalf = octaveAmp 0 := by decide +kernel

/-! The loop over the octaves. -/

section
variable {base : List F64 → Option F64} {c : List F64}

/-- `n` octaves from octave `k` on, where `base` has a value in each. -/
theorem blendLoop_eq_some {v : Nat → F64} {n k : Nat} {amp : F64} (sum norm : F64) (hamp : fMul amp fHalf = octaveAmp k)
    (h : ∀ j ∈ List.range' k n, base (octaveCoords c j) = some (v j)) :
    blendLoop base n (octaveCoords c k) amp sum norm = some (fDiv
      ((List.range' k n).foldl (fun sum j => fAdd sum (fMul (octaveAmp j) (v j))) sum)
      ((List.range' k n).foldl (fun norm j => fAdd norm (octaveAmp j)) norm)) := by
  induction n generalizing k amp sum norm with
  | zero => rfl
  | succ n ih =>
    rw [List.range'_succ] at h ⊢
    obtain ⟨hk, h⟩ := List.forall_mem_cons.1 h
    simp only [blendLoop, hk, hamp, ← octaveCoords_succ, List.foldl_cons]
    exact ih _ _ (fMul_octaveAmp_fHalf k) h

theorem blendLoop_eq_none_iff (n k : Nat) (amp sum norm : F64) :
    blendLoop base n (octaveCoords c k) amp sum norm = none ↔ ∃ j ∈ List.range' k n, base (octaveCoords c j) = none := by
  induction n generalizing k amp sum norm with
  | zero => simp only [blendLoop, List.range'_zero, List.not_mem_nil, false_and, exists_false, reduceCtorEq]
  | succ n ih =>
    rw [List.range'_succ, List.exists_mem_cons_iff]
    cases hk : base (octaveCoords c k) with
    | none => simp only [blendLoop, hk, true_or]
    | some v => simp only [blendLoop, hk, ← octaveCoords_succ, ih, reduceCtorEq, false_or]

end

section
variable {base : List F64 → Option F64} {x off scl : List F64} {oct : Int}

theorem blend_of_nonpos (h : oct ≤ 0) : blend base x off scl oct = some fZero := if_pos h

theorem blend_of_pos (h : 0 < oct) : blend base x off scl oct =
    blendLoop base oct.toNat (octaveCoords (placeCoords x off scl) 0) fTwo fZero fZero := if_neg (not_le.2 h)

/-- A blend is an error exactly when one of its octaves is. -/
theorem blend_eq_none_iff (h : 0 < oct) : blend base x off scl oct = none ↔
    ∃ k < oct.toNat, base (octaveCoords (placeCoords x off scl) k) = none := by
  rw [blend_of_pos h, blendLoop_eq_none_iff, ← List.range_eq_range']
  simp only [List.mem_range]

end

/-- Settles O45: the loop carries the sums of the octaves so far, and its amplitude halves from one octave to the next. -/
theorem blendSumsItsOctaves : Obligations.BlendSumsItsOctaves := by
  unfold Obligations.BlendSumsItsOctaves
  refine ⟨fun x off scl => ⟨placeCoords_length x off scl, fun a => getElem?_placeCoords⟩,
    fun c k => ⟨rfl, by rw [fOfInt_two, octaveCoords_succ]⟩, ?blender⟩
  case blender =>
    intro base x off scl oct c n
    refine ⟨blend_of_nonpos, fun v hpos h => ?_, blend_eq_none_iff⟩
    rw [blend_of_pos hpos, List.range_eq_range']
    refine blendLoop_eq_some _ _ fMul_fTwo_fHalf fun j hj => h j ?_
    rwa [← List.range_eq_range', List.mem_range] at hj

end Sys2Proof.Machine
end

section
/-! SUPPORT. The lattice cell of a coordinate (43_octave_perlin.md R233). -/

namespace Sys2Proof.Machine

/-- The wrapped index and the faded fraction of a finite coordinate (R233). -/
def latticeCell (freq : Nat) (neg : Bool) (mag : Nat) : Nat × F64 :=
  ((fSigned neg mag / (2 ^ 1074 : Int) % freq).toNat, fade (fSub (.fin neg mag) (ffloor (.fin neg mag))))

theorem latticeAxis_fin (freq : Nat) (neg : Bool) (mag : Nat) :
    latticeAxis freq (.fin neg mag) = some (latticeCell freq neg mag) := by
  rw [latticeAxis, ifloor, cast_fUnit, Option.map_some, latticeCell]

theorem latticeAxis_eq_none_iff {freq : Nat} {v : F64} : latticeAxis freq v = none ↔ fFinite v = false := by
  cases v with
  | nan | inf => exact iff_of_true rfl rfl
  | fin neg mag => rw [latticeAxis_fin]; exact iff_of_false (Option.some_ne_none _) nofun

theorem latticeAxes_cons (freq : Nat) (v : F64) (vs : List F64) : latticeAxes freq (v :: vs) =
    (latticeAxis freq v).bind fun cell => (latticeAxes freq vs).map (cell :: ·) := by
  rw [latticeAxes]
  cases latticeAxis freq v <;> rfl

theorem latticeAxes_eq_none_iff {freq : Nat} {c : List F64} : latticeAxes freq c = none ↔ ¬perlinEvaluable c := by
  induction c with
  | nil => simp [latticeAxes, perlinEvaluable]
  | cons v vs ih =>
    have hcons : perlinEvaluable (v :: vs) ↔ fFinite v = true ∧ perlinEvaluable vs := List.forall_mem_cons
    rw [latticeAxes_cons, hcons, not_and_or, Bool.not_eq_true, ← latticeAxis_eq_none_iff (freq := freq), ← ih]
    cases latticeAxis freq v <;> simp

/-- The base has a value exactly where every coordinate is finite (R222, R234). -/
theorem perlinBase_eq_none_iff (s : State) (c : List F64) : s.perlinBase c = none ↔ ¬perlinEvaluable c := by
  rw [State.perlinBase, Option.map_eq_none_iff, latticeAxes_eq_none_iff]

end Sys2Proof.Machine
end

section
/-! CLAIM. `PN1` to `PN4` (43_octave_perlin.md R235 to R238). -/

namespace Sys2Proof.Machine

theorem evaluate_raises {i : Instr} {rd : Reg} {s : State} {built : Bool} {value : State → Option F64}
    (hw : i.wellFormed = true) (hb : built = true) (hv : value s = none) :
    evaluate i rd built value s = .next (s.raise .operand i) := by
  simp only [evaluate, checkLegal, check_of_true hw, check_of_true hb, hv]

theorem fToBits_fZero : fToBits fZero = 0 := by decide +kernel

/-- A blend of Perlin octaves is an error exactly when a coordinate of some octave is not finite. -/
theorem blend_perlinBase_eq_none_iff (s : State) {x off scl : List F64} {oct : Int} (h : 0 < oct) :
    blend s.perlinBase x off scl oct = none ↔
      ∃ k < oct.toNat, ¬perlinEvaluable (octaveCoords (placeCoords x off scl) k) := by
  simp only [blend_eq_none_iff h, perlinBase_eq_none_iff]

section
variable {i : Instr} {rd ra : Reg} {d : Nat} {s : State}
  (hexec : exec i s = evaluate i rd s.pbuilt (fun s => s.perlinNoise ra d) s)
  (hw : i.wellFormed = true) (hb : s.pbuilt = true)
include hexec hw hb

theorem exec_perlin_of_some {v : F64} (hv : s.perlinNoise ra d = some v) :
    exec i s = .next (s.onlyReg rd (fToBits v)) :=
  hexec.trans (evaluate_completes hw hb hv)

theorem exec_perlin_of_none (hv : s.perlinNoise ra d = none) : exec i s = .next (s.raise .operand i) :=
  hexec.trans (evaluate_raises hw hb hv)

/-- The outcomes of an evaluation of `d` coordinates with built tables (R220 to R223). -/
theorem exec_perlin_outcomes :
    let x := s.group ra d
    let c := placeCoords x (axisValues s.pOff) (axisValues s.pScl)
    let oct := s.pOct.toInt
    (oct ≤ 0 → exec i s = .next (s.onlyReg rd 0)) ∧
    (0 < oct → (∀ k < oct.toNat, perlinEvaluable (octaveCoords c k)) →
      ∃ v, blend s.perlinBase x (axisValues s.pOff) (axisValues s.pScl) oct = some v ∧
        exec i s = .next (s.onlyReg rd (fToBits v))) ∧
    (0 < oct → (∃ k < oct.toNat, ¬perlinEvaluable (octaveCoords c k)) → exec i s = .next (s.raise .operand i)) := by
  intro x c oct
  refine ⟨fun hoct => ?_, fun hpos hfinite => ?_, fun hpos hnot => ?_⟩
  · rw [exec_perlin_of_some hexec hw hb (blend_of_nonpos hoct), fToBits_fZero]
  · have hne : s.perlinNoise ra d ≠ none := fun hnone => by
      obtain ⟨k, hk, hnot⟩ := (blend_perlinBase_eq_none_iff s hpos).1 hnone
      exact hnot (hfinite k hk)
    obtain ⟨v, hv⟩ := Option.ne_none_iff_exists'.1 hne
    exact ⟨v, hv, exec_perlin_of_some hexec hw hb hv⟩
  · exact exec_perlin_of_none hexec hw hb ((blend_perlinBase_eq_none_iff s hpos).2 hnot)

end

theorem axisValues_length (v : Vector Word64 4) : (axisValues v).length = 4 := by
  rw [axisValues, List.length_map, Vector.length_toList]

theorem getElem?_axisValues (v : Vector Word64 4) (a : Fin 4) : (axisValues v)[a.val]? = some (fOfBits v[a]) := by
  rw [List.getElem?_eq_getElem (by rw [axisValues_length]; exact a.isLt)]
  simp only [axisValues, List.getElem_map, Vector.getElem_toList, Fin.getElem_fin]

/-- Settles O46: each command evaluates the blend, which is an error exactly when some octave has no lattice cell. -/
theorem perlinEvaluationsComplete : Obligations.PerlinEvaluationsComplete := by
  unfold Obligations.PerlinEvaluationsComplete
  refine ⟨fun v => ⟨axisValues_length v, getElem?_axisValues v⟩, fun rd ra => ⟨hasEncoding_of_formatOf rfl,
    hasEncoding_of_formatOf rfl, hasEncoding_of_formatOf rfl, hasEncoding_of_formatOf rfl⟩, fun rd ra s => ?_⟩
  intro q hq hw hb
  simp only [List.mem_cons, List.not_mem_nil, or_false] at hq
  rcases hq with rfl | rfl | rfl | rfl <;> exact exec_perlin_outcomes rfl (decide_eq_true hw) hb

end Sys2Proof.Machine
end

section
/-! CLAIM. The Perlin base value (43_octave_perlin.md R231 to R234). -/

namespace Sys2Proof.Machine

/-- One axis of the walk: the two lattice neighbours, interpolated (R234). -/
theorem walk_succ (s : State) (axes : List (Nat × F64)) (a off : Nat) : s.walk axes (a + 1) off =
    lerp (axes.getD (a + 1) (0, fZero)).2 (s.walk axes a (s.permAt (a + 1) (off + (axes.getD (a + 1) (0, fZero)).1)))
      (s.walk axes a (s.permAt (a + 1) (off + (axes.getD (a + 1) (0, fZero)).1 + 1))) := by
  rw [State.walk]

theorem latticeAxes_map_fin (freq : Nat) (c : List (Bool × Nat)) :
    latticeAxes freq (c.map fun v => .fin v.1 v.2) = some (c.map fun v => latticeCell freq v.1 v.2) := by
  induction c with
  | nil => rfl
  | cons v c ih => rw [List.map_cons, latticeAxes_cons, latticeAxis_fin, ih]; rfl

/-- The base value at finite coordinates: the walk from the outermost axis (R234). -/
theorem perlinBase_map_fin (s : State) (c : List (Bool × Nat)) : s.perlinBase (c.map fun v => .fin v.1 v.2) =
    some (s.walk (c.map fun v => latticeCell s.freq v.1 v.2) (c.length - 1) 0) := by
  rw [State.perlinBase, latticeAxes_map_fin, Option.map_some, List.length_map]

/-- Settles O47: at finite coordinates the base value is the walk over their lattice cells, one axis inside the other. -/
theorem perlinBaseWalksTheLattice : Obligations.PerlinBaseWalksTheLattice := by
  unfold Obligations.PerlinBaseWalksTheLattice
  refine ⟨fun t a b => ⟨rfl, rfl⟩, by decide +kernel, ?walk⟩
  case walk =>
    intro s n0 n1 n2 n3 m0 m1 m2 m3 _ whole idx frac row plane cube
    have base := perlinBase_map_fin s
    have outer (axes : List (Nat × F64)) := walk_succ s axes 2 0
    simp only [Nat.zero_add] at outer
    exact ⟨base [(n0, m0)], base [(n0, m0), (n1, m1)], base [(n0, m0), (n1, m1), (n2, m2)],
      (base [(n0, m0), (n1, m1), (n2, m2), (n3, m3)]).trans (congrArg some (outer _))⟩

end Sys2Proof.Machine
end

section
/-! CLAIM. Base values repeat with the period `P_FREQ` (43_octave_perlin.md R239). -/

namespace Sys2Proof.Machine

/-- A number less its floor, both of the same sign, is the remainder by 1: rounded like any number, and +0 for a whole number
of either sign. -/
theorem fSub_ffloor (neg : Bool) (mag : Nat) : fSub (.fin neg mag) (ffloor (.fin neg mag)) =
    if fSigned neg mag % fUnit = 0 then fZero else fRound false (fSigned neg mag % fUnit).natAbs 1 := by
  have hunit : (0 : Int) < fUnit := Int.natCast_pos.2 fUnit_pos
  have hrem := Int.emod_nonneg (fSigned neg mag) hunit.ne'
  have hsub : fSigned neg mag - fSigned neg mag / fUnit * fUnit = fSigned neg mag % fUnit := by
    rw [Int.emod_def, mul_comm]
  rw [ffloor, fSub_fin, fSigned_natAbs_ediv neg mag fUnit_pos, hsub, Bool.and_not_self, decide_eq_false (not_lt.2 hrem), fZero]

/-- The cell of a coordinate depends on the coordinate modulo the frequency only. -/
theorem latticeCell_add_mul {freq : Nat} {a b : Bool} {m n : Nat} {k : Int}
    (h : fSigned b n = fSigned a m + k * freq * 2 ^ 1074) : latticeCell freq b n = latticeCell freq a m := by
  rw [← cast_fUnit] at h
  have hunit : (fUnit : Int) ≠ 0 := Nat.cast_ne_zero.2 fUnit_pos.ne'
  have hcell : fSigned b n / fUnit % freq = fSigned a m / fUnit % freq := by
    rw [h, Int.add_mul_ediv_right _ _ hunit, Int.add_mul_emod_self_right]
  have hfrac : fSigned b n % fUnit = fSigned a m % fUnit := by rw [h, Int.add_mul_emod_self_right]
  rw [latticeCell, latticeCell, fSub_ffloor, fSub_ffloor, ← cast_fUnit, hcell, hfrac]

/-- Settles O48: shifting each coordinate by a multiple of the frequency keeps every lattice cell, hence the walk. -/
theorem perlinBaseIsPeriodic : Obligations.PerlinBaseIsPeriodic := by
  unfold Obligations.PerlinBaseIsPeriodic
  intro s c c' _ h
  have haxes : latticeAxes s.freq c' = latticeAxes s.freq c := by
    induction h with
    | nil => rfl
    | cons hv _ ih =>
      obtain ⟨a, b, m, n, k, rfl, rfl, hshift⟩ := hv
      rw [latticeAxes_cons, latticeAxes_cons, latticeAxis_fin, latticeAxis_fin, latticeCell_add_mul hshift, ih]
  rw [State.perlinBase, State.perlinBase, haxes, h.length_eq]

end Sys2Proof.Machine
end

section
/-! SUPPORT. Successive words of a generator (40_wordgen.md R124): drawing some words and then some more. -/

namespace Sys2Proof.Machine

theorem drawWords_add (m n : Nat) (g : Gen) : (drawWords (m + n) g).2 = (drawWords n (drawWords m g).2).2 := by
  induction m generalizing g with
  | zero => rw [Nat.zero_add, drawWords]
  | succ m ih => rw [Nat.add_right_comm, drawWords_succ, drawWords_succ, ih]

theorem wordDrawn_drawWords (m k : Nat) (g : Gen) : wordDrawn (drawWords m g).2 k = wordDrawn g (m + k) := by
  induction m generalizing g with
  | zero => rw [Nat.zero_add, drawWords]
  | succ m ih => rw [drawWords_succ, ih, Nat.add_right_comm, wordDrawn_succ]

theorem nextWord_drawWords (n : Nat) (g : Gen) : nextWord (drawWords n g).2 = (wordDrawn g n, (drawWords (n + 1) g).2) := by
  have hword : (nextWord (drawWords n g).2).1 = wordDrawn g n := wordDrawn_drawWords n 0 g
  have hgen : (nextWord (drawWords n g).2).2 = (drawWords (n + 1) g).2 := (drawWords_add n 1 g).symm
  exact Prod.ext hword hgen

end Sys2Proof.Machine
end

section
/-! SUPPORT. A shuffle step by step (43_octave_perlin.md R229): which word chooses each partner, and what a swap does to the
table. -/

namespace Sys2Proof.Machine

/-! One swap. An entry past the end reads as its own index, so that a table is a function of every index. -/

section
variable {p : List Nat} {i j : Nat} (hi : i < p.length) (hj : j < p.length)
include hi hj

theorem swapAt_getD_left : (swapAt p i j).getD i i = p.getD j j := by
  rw [swapAt, List.getD_eq_getElem _ _ hi, List.getD_eq_getElem _ _ hj, List.getD_eq_getElem _ _ hj,
    List.getD_eq_getElem _ _ (by simpa using hi), List.getElem_set]
  split
  · subst j; rfl
  · exact List.getElem_set_self _

theorem swapAt_getD_right : (swapAt p i j).getD j j = p.getD i i := by
  rw [swapAt, List.getD_eq_getElem _ _ hi, List.getD_eq_getElem _ _ hi, List.getD_eq_getElem _ _ (by simpa using hj),
    List.getElem_set_self]

end

theorem swapAt_getD_of_ne {p : List Nat} {i j k : Nat} (hi : k ≠ i) (hj : k ≠ j) :
    (swapAt p i j).getD k k = p.getD k k := by
  rw [swapAt, List.getD_eq_getElem?_getD, List.getElem?_set_ne hj.symm, List.getElem?_set_ne hi.symm,
    ← List.getD_eq_getElem?_getD]

theorem swapAt_length (p : List Nat) (i j : Nat) : (swapAt p i j).length = p.length := by
  rw [swapAt, List.length_set, List.length_set]

/-! The steps of a shuffle, numbered through its passes. -/

/-- The table and the generator after `n` steps, step `n` being at entry `n mod F`. -/
def shuffleSteps (freq : Nat) (st : List Nat × Gen) : Nat → List Nat × Gen
  | 0 => st
  | n + 1 => shuffleStep freq (shuffleSteps freq st n) (n % freq)

section
variable {freq : Nat} {st : List Nat × Gen}

theorem shuffleSteps_mul_add {p m : Nat} (hm : m ≤ freq) : shuffleSteps freq st (freq * p + m) =
    (List.range m).foldl (shuffleStep freq) (shuffleSteps freq st (freq * p)) := by
  induction m with
  | zero => rfl
  | succ m ih =>
    rw [← Nat.add_assoc, shuffleSteps, ih (Nat.le_of_succ_le hm), Nat.mul_add_mod, Nat.mod_eq_of_lt hm, List.range_succ,
      List.foldl_concat]

theorem shuffleSteps_mul (p : Nat) : shuffleSteps freq st (freq * p) = repeatTimes (shufflePass freq) p st := by
  rw [repeatTimes_eq_iterate]
  induction p with
  | zero => rfl
  | succ p ih => rw [Nat.mul_succ, shuffleSteps_mul_add le_rfl, ih, Function.iterate_succ_apply', shufflePass]

theorem shuffleSteps_fst_length (n : Nat) : (shuffleSteps freq st n).1.length = st.1.length := by
  induction n with
  | zero => rfl
  | succ n ih => rw [shuffleSteps, shuffleStep_fst, swapAt_length, ih]

/-- Each step draws one word. -/
theorem shuffleSteps_snd (n : Nat) : (shuffleSteps freq st n).2 = (drawWords n st.2).2 := by
  induction n with
  | zero => rfl
  | succ n ih =>
    have hdraw : (shuffleSteps freq st (n + 1)).2 = (nextWord (shuffleSteps freq st n).2).2 := rfl
    rw [hdraw, ih, nextWord_drawWords]

/-- Step `n` swaps its entry with the partner that word `n` chooses. -/
theorem shuffleSteps_succ_fst (n : Nat) : (shuffleSteps freq st (n + 1)).1 =
    swapAt (shuffleSteps freq st n).1 (n % freq) (map32 (wordDrawn st.2 n) 0 ((freq : Int) - 1)).toNat := by
  rw [shuffleSteps, shuffleStep_fst, shuffleSteps_snd, nextWord_drawWords]

end

theorem shuffledAxis_eq (freq : Nat) (g : Gen) : shuffledAxis freq g = shuffleSteps freq (List.range freq, g) (5 * freq) := by
  rw [mul_comm, shuffleSteps_mul]
  rfl

theorem shuffledAxis_snd (freq : Nat) (g : Gen) : (shuffledAxis freq g).2 = (drawWords (5 * freq) g).2 := by
  rw [shuffledAxis_eq, shuffleSteps_snd]

/-- An axis is shuffled with the words that follow those of the axes before it. -/
theorem getElem_shuffledAxes (freq : Nat) (g : Gen) {a : Nat} (ha : a < 4) :
    (shuffledAxes freq g)[a] = (shuffledAxis freq (drawWords (5 * freq * a) g).2).1 := by
  have hnext (a : Nat) : (shuffledAxis freq (drawWords (5 * freq * a) g).2).2 = (drawWords (5 * freq * (a + 1)) g).2 := by
    rw [shuffledAxis_snd, ← drawWords_add, Nat.mul_succ]
  match a, ha with
  | 0, _ => rfl
  | 1, _ => rw [← hnext 0]; rfl
  | 2, _ => rw [← hnext 1, ← hnext 0]; rfl
  | 3, _ => rw [← hnext 2, ← hnext 1, ← hnext 0]; rfl

/-- The table of one axis, as a function of every index, after `n` steps of its shuffle. -/
def shuffleTable (freq : Nat) (g : Gen) (n k : Nat) : Nat := (shuffleSteps freq (List.range freq, g) n).1.getD k k

theorem shuffleTable_zero (freq : Nat) (g : Gen) (k : Nat) : shuffleTable freq g 0 k = k := by
  rw [shuffleTable, shuffleSteps]
  rcases lt_or_ge k freq with hlt | hge
  · rw [List.getD_eq_getElem _ _ (by rwa [List.length_range]), List.getElem_range]
  · exact List.getD_eq_default _ _ (by rwa [List.length_range])

/-- A step of a shuffle swaps two entries (R229). -/
theorem shuffleTable_succ {freq : Nat} (hpos : 0 < freq) (hmax : freq ≤ Config.pFreqMax) (g : Gen) (n : Nat) :
    ∃ j : Nat, mapsTo32 (wordDrawn g n) 0 ((freq : Int) - 1) j ∧
      shuffleTable freq g (n + 1) (n % freq) = shuffleTable freq g n j ∧
      shuffleTable freq g (n + 1) j = shuffleTable freq g n (n % freq) ∧
      ∀ k, k ≠ n % freq → k ≠ j → shuffleTable freq g (n + 1) k = shuffleTable freq g n k := by
  have hsize : freq ≤ 4096 := hmax
  have hlen : (shuffleSteps freq (List.range freq, g) n).1.length = freq :=
    (shuffleSteps_fst_length n).trans List.length_range
  have hi := (Nat.mod_lt n hpos).trans_eq hlen.symm
  have hj := (shufflePartner_lt (wordDrawn g n) hpos hmax).trans_eq hlen.symm
  obtain ⟨hnonneg, -⟩ := map32_bounds (wordDrawn g n) (lo := 0) (hi := (freq : Int) - 1) (by omega) (by omega)
  have hmaps := mapsTo32_map32 (wordDrawn g n) (lo := 0) (hi := (freq : Int) - 1) (by omega) (by omega)
  rw [← Int.toNat_of_nonneg hnonneg] at hmaps
  refine ⟨_, hmaps, ?_⟩
  simp only [shuffleTable, shuffleSteps_succ_fst]
  exact ⟨swapAt_getD_left hi hj, swapAt_getD_right hi hj, fun k => swapAt_getD_of_ne⟩

end Sys2Proof.Machine
end

section
/-! CLAIM. `PSEED`, `PFREQ` and `PBUILD` (43_octave_perlin.md R224, R225, R229, R230). -/

namespace Sys2Proof.Machine

/-- An entry in use of the value lattice is the truncated unit double of its word. -/
theorem installValues_getD_eq {ws : List Word64} {k : Nat} (hk : k < ws.length) (hsize : ws.length ≤ 4096)
    (old : Vector Word64 4096) : (installValues ws old).getD k 0 = fToBits (unitTrunc (ws.getD k 0)) := by
  rw [vector_getD_of_lt _ _ (by omega), installValues, Vector.getElem_ofFn, List.getD_eq_getElem _ _ hk,
    List.getD_eq_getElem _ _ (by rwa [List.length_map]), List.getElem_map]

/-- The table that a build gives axis `a` for a seed and a frequency (R229). -/
def builtAxis (seed : Word64) (freq a : Nat) : List Nat :=
  (shuffledAxis freq (drawWords (freq + 5 * freq * a) (initState seed)).2).1

theorem builtAxis_length {freq : Nat} (hmax : freq ≤ Config.pFreqMax) (seed : Word64) (a : Nat) :
    (builtAxis seed freq a).length = freq := (shuffledAxis_perm hmax _).length_eq.trans List.length_range

section
variable {s : State} (hmax : s.freq ≤ Config.pFreqMax)
include hmax

theorem valAt_perlinBuild_eq {k : Nat} (hk : k < s.freq) : s.perlinBuild.valAt k =
    .fin false ((wordDrawn (initState s.pSeed) k).toNat / 2 ^ 11 * 2 ^ 1021) := by
  rw [valAt_perlinBuild, installValues_getD_eq (by rwa [drawWords_length]) (by rwa [drawWords_length]), getD_drawWords _ hk,
    unitTrunc_eq, fOfBits_fToBits_fin false (representable_mul_unitPart (shiftRight_eleven_lt _)), BitVec.toNat_ushiftRight,
    Nat.shiftRight_eq_div_pow, unitPart]

theorem permAt_perlinBuild_eq {a k : Nat} (ha : a < 4) (hk : k < 2 * s.freq) : s.perlinBuild.permAt a k =
    (builtAxis s.pSeed s.freq a ++ builtAxis s.pSeed s.freq a).getD k 0 := by
  have hlen := builtAxis_length hmax s.pSeed a
  have hmax : s.freq ≤ 4096 := hmax
  have haxis : (shuffledAxes s.freq (drawWords s.freq (initState s.pSeed)).2)[a] = builtAxis s.pSeed s.freq a := by
    rw [getElem_shuffledAxes _ _ ha, ← drawWords_add, builtAxis]
  rw [permAt_perlinBuild s ha, haxis, installAxis_getD (by rwa [hlen]) (by omega)]

/-- Both halves of a built table hold what its shuffle ends with. -/
theorem permAt_perlinBuild_halves {a k : Nat} (ha : a < 4) (hk : k < s.freq) :
    s.perlinBuild.permAt a k = (builtAxis s.pSeed s.freq a).getD k k ∧
      s.perlinBuild.permAt a (s.freq + k) = (builtAxis s.pSeed s.freq a).getD k k := by
  have hlen := builtAxis_length hmax s.pSeed a
  rw [permAt_perlinBuild_eq hmax ha (by omega), permAt_perlinBuild_eq hmax ha (by omega)]
  generalize builtAxis s.pSeed s.freq a = p at hlen ⊢
  rw [← hlen] at hk ⊢
  rw [List.getD_append _ _ _ _ hk, List.getD_append_right _ _ _ _ (by omega), Nat.add_sub_cancel_left,
    List.getD_eq_getElem _ _ hk, List.getD_eq_getElem _ _ hk]
  exact ⟨rfl, rfl⟩

end

theorem exec_pfreq (ra : Reg) (s : State) : exec (.pfreq ra) s =
    check (1 ≤ (s.reg ra).toInt && (s.reg ra).toInt ≤ 4096) .config (.pfreq ra) s fun s =>
      .next ({ s with pFreq := s.reg ra } : State).perlinBuild := rfl

/-- Settles O44: the values are the first `F` words drawn, each shuffle is followed step by step, and neither reads the tables
from before the build. -/
theorem perlinRebuilds : Obligations.PerlinRebuilds := by
  unfold Obligations.PerlinRebuilds
  refine ⟨fun ra => ⟨hasEncoding_of_formatOf rfl, hasEncoding_of_formatOf rfl, hasEncoding_of_formatOf rfl⟩,
    fun ra s => ⟨rfl, rfl, fun hlow hhigh => ?legal, fun hout => ?illegal⟩,
    fun s hmax => ⟨⟨_, _, rfl⟩, fun k => valAt_perlinBuild_eq hmax, fun a ha => ?shuffled,
      fun t hseed hfreq => ?sameSeed⟩⟩
  case legal => rw [exec_pfreq, check_of_true (by rw [decide_eq_true hlow, decide_eq_true hhigh]; rfl)]
  case illegal =>
    rw [exec_pfreq, check_of_false]
    rwa [← Bool.not_eq_true, Bool.and_eq_true, decide_eq_true_iff, decide_eq_true_iff, not_and_or, not_le, not_le]
  case shuffled =>
    refine ⟨shuffleTable s.freq (drawWords (s.freq + 5 * s.freq * a) (initState s.pSeed)).2, shuffleTable_zero _ _,
      fun n hn => ?_, fun k hk => ?_⟩
    · rw [← wordDrawn_drawWords]
      exact shuffleTable_succ (by omega) hmax _ n
    · rw [shuffleTable, ← shuffledAxis_eq]
      exact permAt_perlinBuild_halves hmax ha hk
  case sameSeed =>
    have hfreq : t.freq = s.freq := by rw [State.freq, State.freq, hfreq]
    refine ⟨fun k hk => ?_, fun a ha k hk => ?_⟩
    · rw [valAt_perlinBuild_eq (hfreq ▸ hmax) (hfreq ▸ hk), valAt_perlinBuild_eq hmax hk, hseed]
    · rw [permAt_perlinBuild_eq (hfreq ▸ hmax) ha (hfreq ▸ hk), permAt_perlinBuild_eq hmax ha hk, hseed, hfreq]

end Sys2Proof.Machine
end

section
/-! CLAIM. The settings that need no rebuild (43_octave_perlin.md R226 to R228, 44_simplex.md R268 to R271). -/

namespace Sys2Proof.Machine

theorem regLow_eq_ofNat (s : State) (k : Reg) : s.regLow k = BitVec.ofNat 32 ((s.reg k).toNat % 2 ^ 32) := by
  apply BitVec.eq_of_toNat_eq
  rw [State.regLow, BitVec.toNat_setWidth, BitVec.toNat_ofNat, Nat.mod_mod]

theorem immOfAxis_low (axis : Axis) : (immOfAxis axis).extractLsb' 0 2 = BitVec.ofNat 2 (axisIndex axis).val := by
  cases axis <;> decide

/-- The low two bits of a word are those of its immediate field (R90). -/
theorem encode_low (i : Instr) : (encode i).extractLsb' 0 2 = i.fields.imm.extractLsb' 0 2 := by
  rw [← splitWord_encode i]
  exact (BitVec.extractLsb'_extractLsb'_of_le (by decide)).symm

/-- Settles O43: each setting is one field of the state after, and the axis is read from the immediate field. -/
theorem settingsWriteOneRegister : Obligations.SettingsWriteOneRegister := by
  unfold Obligations.SettingsWriteOneRegister
  intro ra axis s
  rw [← regLow_eq_ofNat]
  refine ⟨hasEncoding_of_formatOf rfl, hasEncoding_of_formatOf rfl, hasEncoding_of_formatOf rfl,
    hasEncoding_of_formatOf rfl, hasEncoding_of_formatOf rfl, hasEncoding_of_formatOf rfl, hasEncoding_of_formatOf rfl, ?axis,
    rfl, rfl, rfl, rfl, rfl, rfl, rfl⟩
  case axis =>
    intro i hi
    simp only [List.mem_cons, List.not_mem_nil, or_false] at hi
    rw [encode_low]
    rcases hi with rfl | rfl | rfl | rfl <;> exact immOfAxis_low axis

end Sys2Proof.Machine
end

section
/-! CLAIM. `SSEED` and `SBUILD` (44_simplex.md R261, R262, R272). -/

namespace Sys2Proof.Machine

/-- The build's table of low bytes: entry `k` and entry `256 + k` come from word `k` (R262). -/
theorem getElem_spTable_drawWords (g : Gen) {k : Nat} (hk : k < 512) :
    (spTable (drawWords 256 g).1)[k] = (wordDrawn g (k % 256)).extractLsb' 0 8 := by
  rw [spTable, Vector.getElem_ofFn, getD_drawWords g (Nat.mod_lt k (by decide)), BitVec.setWidth_eq_extractLsb' (by decide)]

/-- Settles O49: a build is one table of low bytes, reduced modulo 12 and modulo 32 entry by entry. -/
theorem simplexRebuilds : Obligations.SimplexRebuilds := by
  unfold Obligations.SimplexRebuilds
  intro ra s built
  have tables (seed : Word64) :
      let sp := spTable (drawWords 256 (initState seed)).1
      built seed sp (sp.map fun b => Fin.ofNat 12 b.toNat) (sp.map fun b => Fin.ofNat 32 b.toNat) := by
    refine ⟨fun k hk => ⟨?low, ?duplicate⟩, fun k hk => ?reduced⟩
    case low => rw [getElem_spTable_drawWords _ (by omega), Nat.mod_eq_of_lt hk]
    case duplicate =>
      rw [getElem_spTable_drawWords _ (by omega), getElem_spTable_drawWords _ (by omega), Nat.add_mod_left]
    case reduced => exact ⟨by rw [Vector.getElem_map, Fin.val_ofNat], by rw [Vector.getElem_map, Fin.val_ofNat]⟩
  exact ⟨hasEncoding_of_formatOf rfl, hasEncoding_of_formatOf rfl, ⟨_, _, _, tables _, rfl⟩, ⟨_, _, _, tables _, rfl⟩⟩

end Sys2Proof.Machine
end

section
/-! CLAIM. The corner-ranking table (44_simplex.md R266). -/

namespace Sys2Proof.Machine

theorem fKey_of_ne_nan {v : F64} (h : v ≠ .nan) : ∃ n, fKey v = some n := by
  cases v with
  | nan => exact absurd rfl h
  | inf neg => exact ⟨_, rfl⟩
  | fin neg mag => exact ⟨_, rfl⟩

/-- Three axes do not beat each other in a circle. The arguments say whether the first axis beats the second, the second the
third, and the first the third. -/
def noCircle (p q r : Bool) : Prop := p = q → r = p

/-- The comparisons of three numbers, a tie going to the later one, have no circle. -/
theorem noCircle_fLt {x y z : F64} (hx : x ≠ .nan) (hy : y ≠ .nan) (hz : z ≠ .nan) :
    noCircle (fLt y x) (fLt z y) (fLt z x) := by
  obtain ⟨a, ha⟩ := fKey_of_ne_nan hx
  obtain ⟨b, hb⟩ := fKey_of_ne_nan hy
  obtain ⟨c, hc⟩ := fKey_of_ne_nan hz
  rw [noCircle, fLt_eq_decide hb ha, fLt_eq_decide hc hb, fLt_eq_decide hc ha, decide_eq_decide, decide_eq_decide]
  omega

/-- How many comparisons each axis wins, from whether x beats y, x beats z, y beats z, and each of them w (R266). -/
def comparisonsWon (xy xz yz xw yw zw : Bool) : List Nat :=
  [xy.toNat + xz.toNat + xw.toNat, (!xy).toNat + yz.toNat + yw.toNat,
    (!xz).toNat + (!yz).toNat + zw.toNat, (!xw).toNat + (!yw).toNat + (!zw).toNat]

/-- R266's table on the outcomes of the six comparisons: where no three axes beat each other in a circle, the entry counts the
comparisons won, and no two axes win the same number. -/
theorem rank_of_noCircle : ∀ xy xz yz xw yw zw : Bool,
    noCircle xy yz xz → noCircle xy yw xw → noCircle xz zw xw → noCircle yz zw yw →
    Config.rank (32 * xy.toNat + 16 * xz.toNat + 8 * yz.toNat + 4 * xw.toNat + 2 * yw.toNat + zw.toNat) =
        comparisonsWon xy xz yz xw yw zw ∧
      (comparisonsWon xy xz yz xw yw zw).Perm [0, 1, 2, 3] := by
  unfold noCircle
  decide

/-- The `a`-th of four ranks, as a coordinate. -/
def rankCoord (ranks : List Nat) (a : Nat) : F64 := .fin false (ranks.getD a 0)

theorem rankCoord_ne_nan (ranks : List Nat) (a : Nat) : rankCoord ranks a ≠ .nan := nofun

/-- An entry that is not all zero is reached by its own ranks, taken as coordinates. -/
theorem rankMask_rankCoord : ∀ c < 64, Config.rank c ≠ [0, 0, 0, 0] →
    rankMask (rankCoord (Config.rank c) 0) (rankCoord (Config.rank c) 1) (rankCoord (Config.rank c) 2)
      (rankCoord (Config.rank c) 3) = c := by
  decide

/-- Settles O51: comparisons of numbers have no circle, and the table is right for all outcomes without one; the other entries
are those that no ranks reach. -/
theorem rankCountsTheComparisonsWon : Obligations.RankCountsTheComparisonsWon := by
  unfold Obligations.RankCountsTheComparisonsWon
  refine ⟨fun x y z w hx hy hz hw => ?counted, by decide, fun c hc hunreached => ?unreached⟩
  case counted =>
    intro won lost
    obtain ⟨hrank, hperm⟩ := rank_of_noCircle _ _ _ _ _ _ (noCircle_fLt hx hy hz) (noCircle_fLt hx hy hw)
      (noCircle_fLt hx hz hw) (noCircle_fLt hy hz hw)
    exact ⟨rfl, hrank, hrank.symm ▸ hperm⟩
  case unreached =>
    by_contra hne
    exact hunreached _ _ _ _ (rankCoord_ne_nan _ _) (rankCoord_ne_nan _ _) (rankCoord_ne_nan _ _) (rankCoord_ne_nan _ _)
      (rankMask_rankCoord c hc hne)

end Sys2Proof.Machine
end

section
/-! SUPPORT. The cell of a point of the simplex generator (44_simplex.md R274 to R276), and that a base value is missing
exactly where a skewed coordinate has none (R222). -/

namespace Sys2Proof.Machine

theorem ifloor_eq_none_iff (v : F64) : ifloor v = none ↔ fFinite v = false := by
  cases v with
  | nan | inf => exact iff_of_true rfl rfl
  | fin neg mag => exact iff_of_false (Option.some_ne_none _) nofun

theorem mapM_eq_none_iff {α β : Type} {f : α → Option β} {l : List α} : l.mapM f = none ↔ ∃ a ∈ l, f a = none := by
  induction l with
  | nil => simp
  | cons a l ih =>
    rw [List.mapM_cons, List.exists_mem_cons_iff, ← ih]
    cases f a <;> cases l.mapM f <;> simp

theorem skew_eq_none_iff (f : Word64) (g : F64) (c : List F64) :
    skew (fOfBits f) g c = none ↔ ¬simplexEvaluable f c := by
  have hskew : skew (fOfBits f) g c = none ↔ c.mapM (fun v => ifloor (fAdd v (fMul (sumLeft c) (fOfBits f)))) = none := by
    cases h : c.mapM fun v => ifloor (fAdd v (fMul (sumLeft c) (fOfBits f))) with
    | none => simp only [skew, h]
    | some idx => simp only [skew_of_cells h, reduceCtorEq]
  rw [hskew, mapM_eq_none_iff]
  simp only [ifloor_eq_none_iff, simplexEvaluable, not_forall, exists_prop, Bool.not_eq_true]

section
variable (s : State) (c : List F64)

theorem simplexBase2_eq_none_iff : s.simplexBase2 c = none ↔ ¬simplexEvaluable Config.simplex.f2 c := by
  rw [State.simplexBase2, Option.map_eq_none_iff, skew_eq_none_iff]

theorem simplexBase3_eq_none_iff : s.simplexBase3 c = none ↔ ¬simplexEvaluable Config.simplex.f3 c := by
  rw [State.simplexBase3, Option.map_eq_none_iff, skew_eq_none_iff]

theorem simplexBase4_eq_none_iff : s.simplexBase4 c = none ↔ ¬simplexEvaluable Config.simplex.f4 c := by
  rw [State.simplexBase4, Option.map_eq_none_iff, skew_eq_none_iff]

end

section
variable {f g x y z w : F64} {i j k l : Int}

theorem skew_two (hi : ifloor (fAdd x (fMul (fAdd x y) f)) = some i) (hj : ifloor (fAdd y (fMul (fAdd x y) f)) = some j) :
    let t := fMul (fOfInt (i + j)) g
    skew f g [x, y] = some ([i, j], [fSub x (fSub (fOfInt i) t), fSub y (fSub (fOfInt j) t)]) := by
  have h : [x, y].mapM (fun v => ifloor (fAdd v (fMul (sumLeft [x, y]) f))) = some [i, j] := by
    simp [sumLeft, hi, hj]
  simp [skew_of_cells h]

theorem skew_three (hi : ifloor (fAdd x (fMul (fAdd (fAdd x y) z) f)) = some i)
    (hj : ifloor (fAdd y (fMul (fAdd (fAdd x y) z) f)) = some j)
    (hk : ifloor (fAdd z (fMul (fAdd (fAdd x y) z) f)) = some k) :
    let t := fMul (fOfInt (i + j + k)) g
    skew f g [x, y, z] =
      some ([i, j, k], [fSub x (fSub (fOfInt i) t), fSub y (fSub (fOfInt j) t), fSub z (fSub (fOfInt k) t)]) := by
  have h : [x, y, z].mapM (fun v => ifloor (fAdd v (fMul (sumLeft [x, y, z]) f))) = some [i, j, k] := by
    simp [sumLeft, hi, hj, hk]
  simp [skew_of_cells h, add_assoc]

theorem skew_four (hi : ifloor (fAdd x (fMul (fAdd (fAdd (fAdd x y) z) w) f)) = some i)
    (hj : ifloor (fAdd y (fMul (fAdd (fAdd (fAdd x y) z) w) f)) = some j)
    (hk : ifloor (fAdd z (fMul (fAdd (fAdd (fAdd x y) z) w) f)) = some k)
    (hl : ifloor (fAdd w (fMul (fAdd (fAdd (fAdd x y) z) w) f)) = some l) :
    let t := fMul (fOfInt (i + j + k + l)) g
    skew f g [x, y, z, w] = some ([i, j, k, l], [fSub x (fSub (fOfInt i) t), fSub y (fSub (fOfInt j) t),
      fSub z (fSub (fOfInt k) t), fSub w (fSub (fOfInt l) t)]) := by
  have h : [x, y, z, w].mapM (fun v => ifloor (fAdd v (fMul (sumLeft [x, y, z, w]) f))) = some [i, j, k, l] := by
    simp [sumLeft, hi, hj, hk, hl]
  simp [skew_of_cells h, add_assoc]

end

end Sys2Proof.Machine
end

section
/-! SUPPORT. The base value of a point with cells (44_simplex.md R273 to R276), from the cell, the offset in it and the steps
to the middle corners. -/

namespace Sys2Proof.Machine

theorem fOfInt_one : fOfInt 1 = fOne := by decide +kernel

theorem fHalf_eq : fHalf = fOfBits 0x3FE0000000000000 := by decide +kernel

/-- Component `a` of gradient `g` of R264. -/
def gradient3 (g a : Nat) : F64 := fOfInt ((Config.simplex.grad3.getD g []).getD a 0)

/-- Component `a` of gradient `g` of R265. -/
def gradient4 (g a : Nat) : F64 := fOfInt ((Config.simplex.grad4.getD g []).getD a 0)

/-- R273: the contribution of a corner from its attenuation and its dot product. -/
def cornerKernel (t d : F64) : F64 := if fLt fZero t = true then fMul (fMul (fMul t t) (fMul t t)) d else fZero

section
variable (s : State)

/-- R273 for the corner with table index `k` and offset `(p, q)`. -/
def State.contribution2 (k : Nat) (p q : F64) : F64 :=
  cornerKernel (fSub (fSub (fOfBits 0x3FE0000000000000) (fMul p p)) (fMul q q))
    (fAdd (fMul (gradient3 (s.sm12At k) 0) p) (fMul (gradient3 (s.sm12At k) 1) q))

theorem corner_two (k : Nat) (p q : F64) :
    corner fHalf (Config.simplex.grad3.getD (s.sm12At k) []) [p, q] = s.contribution2 k p q := by
  simp only [State.contribution2, gradient3]
  obtain ⟨a, b, c, e⟩ := grad3_row (sm12At_lt s k)
  rw [corner_eq, e, dot_two, fHalf_eq]
  rfl

theorem cornerIndex_two (i j : Int) (a b : Nat) : s.cornerIndex [i, j] [a, b] = cell i + a + s.spAt (cell j + b) := rfl

theorem simplexBase2_of_cell {x y p q : F64} {i j : Int} {a b : Nat}
    (hcell : skew (fOfBits Config.simplex.f2) (fOfBits Config.simplex.g2) [x, y] = some ([i, j], [p, q]))
    (hstep : order2 p q = [a, b]) :
    let off := fun (v : F64) (k : Nat) => fAdd (fSub v (fOfInt k)) (fOfBits Config.simplex.g2)
    let last := fun v : F64 => fAdd (fSub v fOne) (fOfBits Config.simplex.twoG2)
    s.simplexBase2 [x, y] = some (fAdd fHalf (fMul (fOfBits Config.simplex.k2) (fAdd (fAdd
      (s.contribution2 (cell i + s.spAt (cell j)) p q)
      (s.contribution2 (cell i + a + s.spAt (cell j + b)) (off p a) (off q b)))
      (s.contribution2 (cell i + 1 + s.spAt (cell j + 1)) (last p) (last q))))) := by
  simp only [State.simplexBase2, hcell, Option.map_some, List.getD_cons_zero, List.getD_cons_succ, hstep, cornerOffset_cons,
    cornerOffset_nil, cornerIndex_two, corner_two, Nat.add_zero, Nat.cast_one, fOfInt_one, rescale, sumLeft, List.foldl_cons,
    List.foldl_nil]

end

theorem order2_eq (x y : F64) :
    let o : Nat × Nat := if fLt y x = true then (1, 0) else (0, 1)
    order2 x y = [o.1, o.2] := by
  simp only [order2]
  split <;> rfl

section
variable (s : State)

/-- R273 for the corner with table index `k` and offset `(p, q, r)`. -/
def State.contribution3 (k : Nat) (p q r : F64) : F64 :=
  cornerKernel (fSub (fSub (fSub (fOfBits 0x3FE3333333333333) (fMul p p)) (fMul q q)) (fMul r r))
    (fAdd (fAdd (fMul (gradient3 (s.sm12At k) 0) p) (fMul (gradient3 (s.sm12At k) 1) q)) (fMul (gradient3 (s.sm12At k) 2) r))

/-- R273 for the corner with table index `k` and offset `(p, q, r, v)`. -/
def State.contribution4 (k : Nat) (p q r v : F64) : F64 :=
  cornerKernel (fSub (fSub (fSub (fSub (fOfBits 0x3FE3333333333333) (fMul p p)) (fMul q q)) (fMul r r)) (fMul v v))
    (fAdd (fAdd (fAdd (fMul (gradient4 (s.sm32At k) 0) p) (fMul (gradient4 (s.sm32At k) 1) q))
      (fMul (gradient4 (s.sm32At k) 2) r)) (fMul (gradient4 (s.sm32At k) 3) v))

theorem corner_three (k : Nat) (p q r : F64) :
    corner f0p6 (Config.simplex.grad3.getD (s.sm12At k) []) [p, q, r] = s.contribution3 k p q r := by
  rw [corner_eq, dot_grad3]
  rfl

theorem corner_four (k : Nat) (p q r v : F64) :
    corner f0p6 (Config.simplex.grad4.getD (s.sm32At k) []) [p, q, r, v] = s.contribution4 k p q r v := by
  rw [corner_eq, dot_grad4]
  rfl

theorem cornerIndex_three (i j k : Int) (a b c : Nat) :
    s.cornerIndex [i, j, k] [a, b, c] = cell i + a + s.spAt (cell j + b + s.spAt (cell k + c)) := rfl

theorem cornerIndex_four (i j k l : Int) (a b c d : Nat) : s.cornerIndex [i, j, k, l] [a, b, c, d] =
    cell i + a + s.spAt (cell j + b + s.spAt (cell k + c + s.spAt (cell l + d))) := rfl

theorem simplexBase3_of_cell {x y z p q r : F64} {i j k : Int} {o : (Nat × Nat × Nat) × (Nat × Nat × Nat)}
    (hcell : skew (fOfBits Config.simplex.f3) (fOfBits Config.simplex.g3) [x, y, z] = some ([i, j, k], [p, q, r]))
    (hstep : order3 p q r = ([o.1.1, o.1.2.1, o.1.2.2], [o.2.1, o.2.2.1, o.2.2.2])) :
    let off := fun (v : F64) (k : Nat) (m : Word64) => fAdd (fSub v (fOfInt k)) (fOfBits m)
    let moved := fun (o : Nat × Nat × Nat) (m : Word64) =>
      s.contribution3 (cell i + o.1 + s.spAt (cell j + o.2.1 + s.spAt (cell k + o.2.2))) (off p o.1 m) (off q o.2.1 m)
        (off r o.2.2 m)
    s.simplexBase3 [x, y, z] = some (fAdd fHalf (fMul (fOfBits Config.simplex.k3) (fAdd (fAdd (fAdd
      (s.contribution3 (cell i + 0 + s.spAt (cell j + 0 + s.spAt (cell k + 0))) p q r)
      (moved o.1 Config.simplex.g3)) (moved o.2 Config.simplex.twoG3)) (moved (1, 1, 1) Config.simplex.threeG3)))) := by
  simp only [State.simplexBase3, hcell, Option.map_some, List.getD_cons_zero, List.getD_cons_succ, hstep, cornerOffset_cons,
    cornerOffset_nil, cornerIndex_three, corner_three, rescale, sumLeft, List.foldl_cons, List.foldl_nil]

end

theorem order3_eq (x y z : F64) :
    let o : (Nat × Nat × Nat) × (Nat × Nat × Nat) :=
      if fLe y x = true then
        if fLe z y = true then ((1, 0, 0), (1, 1, 0))
        else if fLe z x = true then ((1, 0, 0), (1, 0, 1)) else ((0, 0, 1), (1, 0, 1))
      else if fLt y z = true then ((0, 0, 1), (0, 1, 1))
        else if fLt x z = true then ((0, 1, 0), (0, 1, 1)) else ((0, 1, 0), (1, 1, 0))
    order3 x y z = ([o.1.1, o.1.2.1, o.1.2.2], [o.2.1, o.2.2.1, o.2.2.2]) := by
  simp only [order3]
  split_ifs <;> rfl

/-- R276: the step along an axis to the corner `m` of four, 0 at the first corner. -/
def stepAlong (ranks : List Nat) (m axis : Nat) : Nat := if m = 0 then 0 else if 4 - m ≤ ranks.getD axis 0 then 1 else 0

theorem stepAlong_zero (ranks : List Nat) (axis : Nat) : stepAlong ranks 0 axis = 0 := rfl

theorem stepAlong_four (ranks : List Nat) (axis : Nat) : stepAlong ranks 4 axis = 1 := by
  rw [stepAlong, if_neg four_ne_zero, if_pos (Nat.zero_le _)]

theorem rankStep_four {m : Nat} (hm : m ≠ 0) (a b c d : Nat) : rankStep [a, b, c, d] m =
    [stepAlong [a, b, c, d] m 0, stepAlong [a, b, c, d] m 1, stepAlong [a, b, c, d] m 2, stepAlong [a, b, c, d] m 3] := by
  simp only [stepAlong, if_neg hm]
  rfl

theorem simplexBase4_of_cell (s : State) {x y z w p q r v : F64} {i j k l : Int}
    (hcell : skew (fOfBits Config.simplex.f4) (fOfBits Config.simplex.g4) [x, y, z, w] = some ([i, j, k, l], [p, q, r, v])) :
    let o := stepAlong (Config.rank (rankMask p q r v))
    let index := fun m : Nat =>
      cell i + o m 0 + s.spAt (cell j + o m 1 + s.spAt (cell k + o m 2 + s.spAt (cell l + o m 3)))
    let off := fun (u : F64) (m axis : Nat) (b : Word64) => fAdd (fSub u (fOfInt (o m axis))) (fOfBits b)
    let moved := fun (m : Nat) (b : Word64) =>
      s.contribution4 (index m) (off p m 0 b) (off q m 1 b) (off r m 2 b) (off v m 3 b)
    s.simplexBase4 [x, y, z, w] = some (fAdd fHalf (fMul (fOfBits Config.simplex.k4) (fAdd (fAdd (fAdd (fAdd
      (s.contribution4 (index 0) p q r v) (moved 1 Config.simplex.g4)) (moved 2 Config.simplex.twoG4))
      (moved 3 Config.simplex.threeG4)) (moved 4 Config.simplex.fourG4)))) := by
  obtain ⟨a, b, c, d, hranks⟩ := rank_row (rankMask_lt p q r v)
  simp only [State.simplexBase4, hcell, Option.map_some, List.getD_cons_zero, List.getD_cons_succ, hranks,
    rankStep_four one_ne_zero, rankStep_four two_ne_zero, rankStep_four three_ne_zero, stepAlong_zero, stepAlong_four,
    cornerOffset_cons, cornerOffset_nil, cornerIndex_four, corner_four, rescale, sumLeft, List.foldl_cons, List.foldl_nil]

end Sys2Proof.Machine
end

section
/-! SUPPORT. What an evaluation of a blend does with built tables (43_octave_perlin.md R220, R222, R223). -/

namespace Sys2Proof.Machine

section
variable {i : Instr} {rd : Reg} {s : State} {built : Bool} {value : State → Option F64} {base : List F64 → Option F64}
  {x off scl : List F64} {oct : Int} {evaluable : List F64 → Prop}

/-- A blend whose base has a value exactly at the evaluable points is an error exactly when some octave's point is none. -/
theorem blend_eq_none_iff_of_base (hbase : ∀ c, base c = none ↔ ¬evaluable c) (h : 0 < oct) :
    blend base x off scl oct = none ↔ ∃ k < oct.toNat, ¬evaluable (octaveCoords (placeCoords x off scl) k) := by
  simp only [blend_eq_none_iff h, hbase]

theorem evaluate_blend_outcomes (hbase : ∀ c, base c = none ↔ ¬evaluable c) (hw : i.wellFormed = true) (hb : built = true)
    (hvalue : value s = blend base x off scl oct) :
    (oct ≤ 0 → evaluate i rd built value s = .next (s.onlyReg rd 0)) ∧
    (0 < oct → (∀ k < oct.toNat, evaluable (octaveCoords (placeCoords x off scl) k)) →
      ∃ v, blend base x off scl oct = some v ∧ evaluate i rd built value s = .next (s.onlyReg rd (fToBits v))) ∧
    (0 < oct → (∃ k < oct.toNat, ¬evaluable (octaveCoords (placeCoords x off scl) k)) →
      evaluate i rd built value s = .next (s.raise .operand i)) := by
  refine ⟨fun hoct => ?none, fun hpos hall => ?all, fun hpos hsome => ?some⟩
  case none =>
    rw [evaluate_completes hw hb (hvalue.trans (blend_of_nonpos hoct)), fToBits_fZero]
    rfl
  case all =>
    have hne : blend base x off scl oct ≠ none := fun hnone => by
      obtain ⟨k, hk, hnot⟩ := (blend_eq_none_iff_of_base hbase hpos).1 hnone
      exact hnot (hall k hk)
    obtain ⟨v, hv⟩ := Option.ne_none_iff_exists'.1 hne
    exact ⟨v, hv, evaluate_completes hw hb (hvalue.trans hv)⟩
  case some => exact evaluate_raises hw hb (hvalue.trans ((blend_eq_none_iff_of_base hbase hpos).2 hsome))

end

end Sys2Proof.Machine
end

section
/-! CLAIM. `SN2` to `SN4` (44_simplex.md R263 to R267, R273 to R279). -/

namespace Sys2Proof.Machine

/-- Settles O50: each base value is that of the point's cell, and each command evaluates the blend, which is an error exactly when
some octave has a skewed coordinate without a cell. -/
theorem simplexEvaluationsComplete : Obligations.SimplexEvaluationsComplete := by
  unfold Obligations.SimplexEvaluationsComplete
  refine ⟨fun s x y i j hi hj => ?base2, fun s x y z i j k hi hj hk => ?base3, fun s x y z w i j k l hi hj hk hl => ?base4,
    ?constants, ?gradients, fun v => ⟨axisValues_length v, getElem?_axisValues v⟩,
    fun rd ra => ⟨hasEncoding_of_formatOf rfl, hasEncoding_of_formatOf rfl, hasEncoding_of_formatOf rfl⟩,
    fun rd ra s => ?evaluations⟩
  case base2 => exact simplexBase2_of_cell s (skew_two hi hj) (order2_eq _ _)
  case base3 => exact simplexBase3_of_cell s (skew_three hi hj hk) (order3_eq _ _ _)
  case base4 => exact simplexBase4_of_cell s (skew_four hi hj hk hl)
  case constants => decide +kernel
  case gradients => decide
  case evaluations =>
    intro q hq hw hb
    simp only [List.mem_cons, List.not_mem_nil, or_false] at hq
    rcases hq with rfl | rfl | rfl
    · exact evaluate_blend_outcomes (simplexBase2_eq_none_iff s) (decide_eq_true hw) hb rfl
    · exact evaluate_blend_outcomes (simplexBase3_eq_none_iff s) (decide_eq_true hw) hb rfl
    · exact evaluate_blend_outcomes (simplexBase4_eq_none_iff s) (decide_eq_true hw) hb rfl

end Sys2Proof.Machine
end

section
/-! SUPPORT. The scales of `SMIP` (44_simplex.md R280): each is half of the one before it, rounded, and none but the first 1024
can reach 1.0. -/

namespace Sys2Proof.Machine

theorem mipScale_succ (size : F64) (k : Nat) : mipScale size (k + 1) = fMul (mipScale size k) fHalf := by
  rw [mipScale, mipScale, repeatTimes_eq_iterate, repeatTimes_eq_iterate, Function.iterate_succ_apply']

/-- The largest magnitude of 53 significant bits below `2 ^ (e + 53)`. -/
def topMag (e : Nat) : Nat := (2 ^ 53 - 1) * 2 ^ e

theorem topMag_representable {e : Nat} (h : e ≤ 2045) : representable (topMag e) :=
  representable_mul_two_pow (by decide) h

theorem representable.le_topMag {mag e : Nat} (h : representable mag) (hlt : mag < 2 ^ 53 * 2 ^ e) : mag ≤ topMag e := by
  rcases h.multiple_or_lt e with ⟨k, rfl⟩ | ⟨-, hlow⟩
  · exact Nat.mul_le_mul_right _ (Nat.le_pred_of_lt (Nat.lt_of_mul_lt_mul_right hlt))
  · exact hlow.le.trans (Nat.mul_le_mul_right _ (by decide))

/-- Halving a number below `2 ^ (e + 54)` gives one below `2 ^ (e + 53)`: rounding does not reach the power of two. -/
theorem fMul_fHalf_le_topMag {mag e : Nat} (neg : Bool) (he : e ≤ 2045) (h : mag ≤ topMag (e + 1)) :
    ∃ mag' ≤ topMag e, fMul (.fin neg mag) fHalf = .fin neg mag' := by
  have hhalf : mag * 2 ^ 1073 ≤ topMag e * fUnit := by
    calc mag * 2 ^ 1073 ≤ topMag (e + 1) * 2 ^ 1073 := Nat.mul_le_mul_right _ h
      _ = topMag e * fUnit := by
        rw [topMag, topMag, fUnit, pow_succ, pow_succ 2 1073]
        generalize 2 ^ 1073 = half
        ring
  have hrep := topMag_representable he
  have hle := roundedMag_le fUnit_pos hrep hhalf
  obtain ⟨-, -, -, -, hlt⟩ := hrep
  refine ⟨_, hle, ?_⟩
  rw [fHalf, fMul_fin_fUnit, fRound_eq, if_neg (not_le.2 (hle.trans_lt hlt)), Bool.xor_false]

/-- The scale of iteration `k` of any finite size lies below `2 ^ (1024 - k)`. -/
theorem mipScale_le_topMag {mag k e : Nat} (neg : Bool) (h : representable mag) (hk : k + e = 2045) :
    ∃ mag' ≤ topMag e, mipScale (.fin neg mag) k = .fin neg mag' := by
  induction k generalizing e with
  | zero =>
    obtain rfl : e = 2045 := by omega
    obtain ⟨-, -, -, -, hlt⟩ := id h
    exact ⟨mag, h.le_topMag (hlt.trans_eq fOverflow_eq), rfl⟩
  | succ k ih =>
    obtain ⟨mag', hle, hscale⟩ := ih (e := e + 1) (by omega)
    rw [mipScale_succ, hscale]
    exact fMul_fHalf_le_topMag neg (by omega) hle

theorem topMag_lt_fUnit : topMag 1021 < fUnit := by decide +kernel

/-- After 1024 halvings any finite size is below 1.0 (R280). -/
theorem mipScale_1024_lt_one {b : Word64} (h : fFinite (fOfBits b) = true) :
    fLe fOne (mipScale (fOfBits b) 1024) = false := by
  obtain ⟨mag, hrep, hb⟩ := fOfBits_of_fFinite h
  obtain ⟨mag', hle, hscale⟩ := mipScale_le_topMag (patternNeg b) hrep (k := 1024) (e := 1021) rfl
  have hlt := hle.trans_lt topMag_lt_fUnit
  rw [hb, hscale, fOne_eq, fLe_eq_false_iff (fKey_fin _ _) (fKey_fin _ _)]
  cases patternNeg b <;> simp only [fSigned_false, fSigned_true] <;> omega

end Sys2Proof.Machine
end

section
/-! CLAIM. `SMIP` (44_simplex.md R280). -/

namespace Sys2Proof.Machine

/-- The point of iteration `k` (R280). -/
def mipPoint (p : List F64) (size : F64) (k : Nat) : List F64 := p.map fun v => fDiv v (mipScale size k)

/-! The loop from iteration `k` on, where the next `n` scales reach 1.0. -/

section
variable {base : List F64 → Option F64} {p : List F64} {size : F64} {fuel k n : Nat}
  (hfuel : n ≤ fuel) (hrun : ∀ j ∈ List.range' k n, fLe fOne (mipScale size j) = true)
include hfuel hrun

theorem mipLoop_eq_some {v : Nat → F64} (total : F64) (hstop : fLe fOne (mipScale size (k + n)) = false)
    (hbase : ∀ j ∈ List.range' k n, base (mipPoint p size j) = some (v j)) :
    mipLoop base p fuel (mipScale size k) total = some
      ((List.range' k n).foldl (fun total j => fAdd total (fMul (v j) (mipScale size j))) total) := by
  induction n generalizing fuel k total with
  | zero =>
    rw [Nat.add_zero] at hstop
    cases fuel with
    | zero => rfl
    | succ fuel => rw [mipLoop, hstop]; rfl
  | succ n ih =>
    obtain ⟨fuel, rfl⟩ := Nat.exists_eq_add_of_le' (Nat.le_of_add_left_le hfuel)
    rw [List.range'_succ] at hrun hbase ⊢
    obtain ⟨hk, hrun⟩ := List.forall_mem_cons.1 hrun
    obtain ⟨hv, hbase⟩ := List.forall_mem_cons.1 hbase
    rw [mipPoint] at hv
    simp only [mipLoop, hk, if_true, hv, ← mipScale_succ, List.foldl_cons]
    exact ih (by omega) hrun _ (by rwa [Nat.add_right_comm]) hbase

theorem mipLoop_eq_none (total : F64) (hbase : ∃ j ∈ List.range' k n, base (mipPoint p size j) = none) :
    mipLoop base p fuel (mipScale size k) total = none := by
  induction n generalizing fuel k total with
  | zero => simp at hbase
  | succ n ih =>
    obtain ⟨fuel, rfl⟩ := Nat.exists_eq_add_of_le' (Nat.le_of_add_left_le hfuel)
    rw [List.range'_succ] at hrun hbase
    obtain ⟨hk, hrun⟩ := List.forall_mem_cons.1 hrun
    rw [List.exists_mem_cons_iff] at hbase
    rw [mipLoop, if_pos hk, ← mipPoint, ← mipScale_succ]
    cases hv : base (mipPoint p size k) with
    | none => rfl
    | some v => exact ih (by omega) hrun _ (hbase.resolve_left (by simp [hv]))

end

theorem mip_of_size_refused {s : State} {size : F64} {p : List F64} (h : ¬(fFinite size = true ∧ fLt fZero size = true)) :
    s.mip size p = none := by
  rw [State.mip, sizeOk, if_neg (by rwa [Bool.and_eq_true])]

theorem mip_of_size_accepted {s : State} {size : F64} {p : List F64} (hfin : fFinite size = true)
    (hpos : fLt fZero size = true) : s.mip size p =
      (mipLoop s.simplexBase3 p 1024 (mipScale size 0) fZero).map fun total => fDiv total size := by
  rw [State.mip, sizeOk, hfin, hpos]
  rfl

theorem exec_smip (rd ra : Reg) (s : State) : exec (.smip rd ra) s = evaluate (.smip rd ra) rd s.sbuilt
    (fun s => s.mip (s.regF ra) [s.regF (ra + 1), s.regF (ra + 2), s.regF (ra + 3)]) s := rfl

/-- Settles O52: no scale after 1024 halvings reaches 1.0, so the loop ends where the scales do, not at its bound. -/
theorem smipSumsItsScales : Obligations.SmipSumsItsScales := by
  unfold Obligations.SmipSumsItsScales
  refine ⟨fun rd ra => hasEncoding_of_formatOf rfl, ?_⟩
  intro rd ra s hgroup hb size p i point
  have hw : i.wellFormed = true := decide_eq_true hgroup
  refine ⟨fun hbad => ?refused, fun hfin hpos => ?accepted⟩
  case refused => exact (exec_smip rd ra s).trans (evaluate_raises hw hb (mip_of_size_refused hbad))
  case accepted =>
    have hlast : fLe fOne (mipScale size 1024) = false := mipScale_1024_lt_one hfin
    refine ⟨⟨1024, le_rfl, hlast⟩, fun n hstop hrun => ?_⟩
    have hn : n ≤ 1024 := by
      by_contra hlt
      rw [hrun 1024 (not_le.1 hlt)] at hlast
      cases hlast
    have hmip := mip_of_size_accepted (s := s) (p := p) hfin hpos
    simp only [← List.mem_range, List.range_eq_range'] at hrun ⊢
    refine ⟨fun v hv => ?sum, fun hnone => ?operand, fun k => simplexBase3_eq_none_iff s _⟩
    case sum =>
      rw [mipLoop_eq_some hn hrun fZero (by rwa [Nat.zero_add]) hv] at hmip
      exact (exec_smip rd ra s).trans (evaluate_completes hw hb hmip)
    case operand =>
      rw [mipLoop_eq_none hn hrun fZero hnone] at hmip
      exact (exec_smip rd ra s).trans (evaluate_raises hw hb hmip)

end Sys2Proof.Machine
end

section
/-! SUPPORT. The values that are commands (30_encoding.md R96, R98). -/

namespace Sys2Proof

variable {v : Word64}

theorem decode_eq_ok_iff (w : Word32) (i : Instr) : decode w = .ok i ↔ encode i = w ∧ i.wellFormed = true := by
  constructor
  · exact decodedWordIsTheCommandsWord w i
  · rintro ⟨rfl, hwf⟩
    exact decode_encode hwf

theorem setWidth_setWidth_of_upper_eq_zero (h : v.extractLsb' 32 32 = 0) : (v.setWidth 32).setWidth 64 = v := by
  have hlt := v.isLt
  rw [← BitVec.toNat_inj, BitVec.extractLsb'_toNat, Nat.shiftRight_eq_div_pow, BitVec.ofNat_eq_ofNat, BitVec.toNat_zero] at h
  rw [← BitVec.toNat_inj, BitVec.toNat_setWidth, BitVec.toNat_setWidth]
  omega

/-- Step 1 rejects the value (R96). -/
theorem decodeCommand_of_upper (h : v.extractLsb' 32 32 ≠ 0) : decodeCommand v = .error .upperHalf := if_neg h

theorem decodeCommand_eq_ok_iff (v : Word64) (i : Instr) :
    decodeCommand v = .ok i ↔ v = (encode i).setWidth 64 ∧ i.wellFormed = true := by
  constructor
  · intro h
    by_cases hupper : v.extractLsb' 32 32 = 0
    · rw [decodeCommand, if_pos hupper, decode_eq_ok_iff] at h
      obtain ⟨hword, hwf⟩ := h
      exact ⟨by rw [hword, setWidth_setWidth_of_upper_eq_zero hupper], hwf⟩
    · rw [decodeCommand_of_upper hupper] at h
      contradiction
  · rintro ⟨rfl, hwf⟩
    rw [decodeCommand_setWidth, decode_encode hwf]

end Sys2Proof
end

section
/-! SUPPORT. What a value written to `CMD` does with an error latched and with none, and everything that a host access other than
reset can do, by its direction (20_memory.md R62 to R68, 60_exceptions.md R304, R305, R314). -/

namespace Sys2Proof.Machine

variable {s t : State} {v : Word64} {o : BitVec 13} {size : Nat}

theorem State.err_of_latched (h : s.ecode ≠ 0) : s.err = true := bne_iff_ne.2 h

/-- With an error latched every value but the `CLRERR` word is dropped (R304). -/
theorem issue_of_latched (h : s.ecode ≠ 0) (hv : v ≠ clrerrValue) : issue v s = .next s := by
  simp only [issue, State.err_of_latched h, if_neg hv]

/-- `CLRERR` runs with an error latched (R304, R316). -/
theorem issue_clrerr_of_latched (h : s.ecode ≠ 0) : issue clrerrValue s = .next s.clearError := by
  simp only [issue, State.err_of_latched h, if_pos]
  rfl

/-- A value that is no command (R305). -/
theorem issue_of_error {d : DecodeError} (h : s.ecode = 0) (hv : decodeCommand v = .error d) :
    issue v s = .next { s with ecode := 1, einfo := BitVec.ofNat 64 (v.toNat % 2 ^ 32) } := by
  simp only [issue_of_clear h, hv, State.latch_of_clear h, setWidth_setWidth_eq_ofNat]
  rfl

/-- Everything a value written to `CMD` can do (R314). -/
theorem issue_cases (h : issue v s = .next t) :
    (s.ecode ≠ 0 ∧ v ≠ clrerrValue ∧ t = s) ∨ (s.ecode ≠ 0 ∧ v = clrerrValue ∧ t = s.clearError) ∨
    (s.ecode = 0 ∧ ∃ i, decodeCommand v = .ok i ∧ exec i s = .next t) ∨
    (s.ecode = 0 ∧ ∃ d, decodeCommand v = .error d ∧
      t = { s with ecode := 1, einfo := BitVec.ofNat 64 (v.toNat % 2 ^ 32) }) := by
  by_cases hclear : s.ecode = 0
  · cases hdecode : decodeCommand v with
    | ok i =>
      simp only [issue_of_clear hclear, hdecode] at h
      exact .inr (.inr (.inl ⟨hclear, i, rfl, h⟩))
    | error d =>
      rw [issue_of_error hclear hdecode] at h
      exact .inr (.inr (.inr ⟨hclear, d, rfl, (Host.Outcome.next.inj h).symm⟩))
  · by_cases hv : v = clrerrValue
    · rw [hv, issue_clrerr_of_latched hclear] at h
      exact .inr (.inl ⟨hclear, hv, (Host.Outcome.next.inj h).symm⟩)
    · rw [issue_of_latched hclear hv] at h
      exact .inl ⟨hclear, hv, (Host.Outcome.next.inj h).symm⟩

theorem hostAccess_cmd (v : Word64) (s : State) : hostAccess (.write 0x000 8 v) s = issue v s :=
  hostAccess_write_of_some (s.hostWrite_cmd v)

/-- Everything a read can do (R62, R68). -/
theorem hostAccess_read_cases (h : hostAccess (.read o size) s = .next t) :
    (∃ v, t = { s with rdata := v }) ∨ t = ({ s with rdata := 0 } : State).latch .bus (busInfo o false) := by
  cases hread : s.hostRead o.toNat size with
  | some v =>
    rw [hostAccess_read_of_some hread] at h
    exact .inl ⟨v, (Host.Outcome.next.inj h).symm⟩
  | none =>
    rw [hostAccess_read_of_none hread] at h
    exact .inr (Host.Outcome.next.inj h).symm

/-- Everything a write can do (R62 to R64, R68). -/
theorem hostAccess_write_cases (h : hostAccess (.write o size v) s = .next t) :
    (o = 0x000 ∧ size = 8 ∧ issue v s = .next t) ∨ (∃ k, t = s.setReg k v) ∨
    (∃ addr, t = s.memWrite addr size v.toNat) ∨ t = s.latch .bus (busInfo o true) := by
  cases hwrite : s.hostWrite o.toNat size v with
  | none =>
    rw [hostAccess_write_of_none hwrite] at h
    exact .inr (.inr (.inr (Host.Outcome.next.inj h).symm))
  | some result =>
    rw [hostAccess_write_of_some hwrite] at h
    subst h
    unfold State.hostWrite at hwrite
    split_ifs at hwrite with hreg hcmd hoperand hwindow
    · obtain ⟨-, hsize, -⟩ := registerAccess_iff.1 hreg
      exact .inl ⟨BitVec.eq_of_toNat_eq hcmd, hsize, Option.some.inj hwrite⟩
    · cases hwrite; exact .inr (.inl ⟨_, rfl⟩)
    · cases hwrite; exact .inr (.inr (.inl ⟨_, rfl⟩))

end Sys2Proof.Machine
end

section
/-! CLAIM. Values that are no command (60_exceptions.md R305). -/

namespace Sys2Proof.Machine

/-- Settles O6: the decoder answers exactly the commands that keep R92, so any other value is an error of the decoder. -/
theorem illegalValuesLatchIllegal : Obligations.IllegalValuesLatchIllegal := by
  unfold Obligations.IllegalValuesLatchIllegal
  refine fun v s => ⟨decodeCommand_eq_ok_iff v, fun hclear hnone => ?_⟩
  cases hdecode : decodeCommand v with
  | ok i =>
    obtain ⟨hv, hwf⟩ := (decodeCommand_eq_ok_iff v i).1 hdecode
    exact absurd hv (hnone i hwf)
  | error d => rw [hostAccess_cmd, issue_of_error hclear hdecode]

end Sys2Proof.Machine
end

section
/-! CLAIM. The first error wins (60_exceptions.md R302). -/

namespace Sys2Proof.Machine

/-- Settles O13: with an error latched a refused access writes nothing to the latch and a command is dropped; a register, the
buffer and what a read returned are no part of the latch. -/
theorem firstErrorWins : Obligations.FirstErrorWins := by
  unfold Obligations.FirstErrorWins
  intro s t a hlatched hreset hclrerr h
  cases a with
  | reset => exact absurd rfl hreset
  | read o size =>
    rcases hostAccess_read_cases h with ⟨v, rfl⟩ | rfl
    · exact ⟨rfl, rfl⟩
    · rw [State.latch_of_set (s := { s with rdata := 0 }) hlatched]
      exact ⟨rfl, rfl⟩
  | write o size v =>
    rcases hostAccess_write_cases h with ⟨rfl, rfl, hissue⟩ | ⟨k, rfl⟩ | ⟨addr, rfl⟩ | rfl
    · have hv : v ≠ clrerrValue := fun hv => hclrerr (by rw [hv]; rfl)
      rw [issue_of_latched hlatched hv] at hissue
      cases hissue
      exact ⟨rfl, rfl⟩
    · exact ⟨rfl, rfl⟩
    · exact ⟨rfl, rfl⟩
    · rw [State.latch_of_set hlatched]
      exact ⟨rfl, rfl⟩

end Sys2Proof.Machine
end

section
/-! CLAIM. With an error latched commands are dropped and every other access works as usual (60_exceptions.md R304). -/

namespace Sys2Proof.Machine

/-- Of the registers only `STATUS` and `EINFO` show the latch (R27, R28, R61). -/
theorem State.readRegister_clearError (s : State) {o : Nat} (hstatus : o ≠ 0x008) (heinfo : o ≠ 0x010) :
    s.clearError.readRegister o = s.readRegister o := by
  simp only [State.readRegister, if_neg hstatus, if_neg heinfo]
  rfl

theorem State.hostRead_clearError (s : State) {o : Nat} (size : Nat) (hstatus : o ≠ 0x008) (heinfo : o ≠ 0x010) :
    s.clearError.hostRead o size = s.hostRead o size := by
  rw [State.hostRead, s.readRegister_clearError hstatus heinfo]
  rfl

theorem hostAccess_write_reg (s : State) (k : Reg) (v : Word64) :
    hostAccess (.write (BitVec.ofNat 13 (0x200 + 8 * k.val)) 8 v) s = .next (s.setReg k v) := by
  have hoffset : (BitVec.ofNat 13 (0x200 + 8 * k.val)).toNat = 0x200 + 8 * k.val := by
    rw [BitVec.toNat_ofNat]
    omega
  exact hostAccess_write_of_some (by rw [hoffset, s.hostWrite_reg])

/-- Settles O14: commands by `issue`, and reads and writes by the register map, which knows the latch only in `STATUS` and
`EINFO`. -/
theorem latchedErrorDropsCommands : Obligations.LatchedErrorDropsCommands := by
  unfold Obligations.LatchedErrorDropsCommands
  intro s hlatched
  refine ⟨fun v hv => ?dropped, ?clrerr, fun o size v hread => hostAccess_read_of_some hread,
    fun o size hstatus heinfo => (s.hostRead_clearError size hstatus heinfo).symm, hostAccess_write_reg s,
    fun o size v hwindow => hostAccess_write_of_some (s.hostWrite_window hwindow v)⟩
  case dropped => rw [hostAccess_cmd, issue_of_latched hlatched hv]
  case clrerr => exact (hostAccess_cmd ..).trans (issue_clrerr_of_latched hlatched)

end Sys2Proof.Machine
end

section
/-! CLAIM. A command that raises an error changes the latch and nothing else (60_exceptions.md R301, R303). -/

namespace Sys2Proof.Machine

variable {i : Instr} {s t : State}

/-- No effect of a command but a raised error latches one. -/
theorem CommandEffect.raised_of_latched (h : CommandEffect i s t) (hclear : s.ecode = 0) (hlatched : t.ecode ≠ 0) :
    ∃ e, t = s.raise e i := by
  cases h with
  | raised e => exact ⟨e, rfl⟩
  | cleared => exact absurd rfl hlatched
  | _ => exact absurd hclear hlatched

theorem State.raise_eq (h : s.ecode = 0) (e : Err) (i : Instr) :
    s.raise e i = { s with ecode := e.code, einfo := BitVec.ofNat 64 (encode i).toNat } := by
  rw [State.raise_of_clear h, State.withError, BitVec.ofNat_toNat]

theorem exec_error (hclear : s.ecode = 0) (h : exec i s = .next t) (hlatched : t.ecode ≠ 0) :
    ∃ e : Err, t = { s with ecode := e.code, einfo := BitVec.ofNat 64 (encode i).toNat } := by
  obtain ⟨e, rfl⟩ := (exec_effect h).raised_of_latched hclear hlatched
  exact ⟨e, State.raise_eq hclear e i⟩

/-- The word of a command is the low half of the value written to `CMD` (R28, R63). -/
theorem toNat_encode_of_decodeCommand {v : Word64} (h : decodeCommand v = .ok i) : (encode i).toNat = v.toNat % 2 ^ 32 := by
  obtain ⟨rfl, -⟩ := (decodeCommand_eq_ok_iff v i).1 h
  rw [BitVec.toNat_setWidth]
  omega

/-- Settles O15: a command latches an error only where it raises one, and a value that is no command where it is refused. -/
theorem errorsChangeOnlyTheLatch : Obligations.ErrorsChangeOnlyTheLatch := by
  unfold Obligations.ErrorsChangeOnlyTheLatch
  refine ⟨fun v s t hclear h hlatched => ?written, fun i s t => exec_error, fun s e i hclear => State.raise_eq hclear e i,
    rfl, rfl, rfl, rfl, rfl, rfl, rfl⟩
  case written =>
    rw [hostAccess_cmd] at h
    rcases issue_cases h with ⟨hset, -⟩ | ⟨hset, -⟩ | ⟨-, i, hdecode, hexec⟩ | ⟨-, d, -, rfl⟩
    · exact absurd hclear hset
    · exact absurd hclear hset
    · rw [← toNat_encode_of_decodeCommand hdecode]
      exact exec_error hclear hexec hlatched
    · exact ⟨.illegal, rfl⟩

end Sys2Proof.Machine
end

section
/-! CLAIM. Commands that need the main generator, before the first seeding (60_exceptions.md R307). -/

namespace Sys2Proof.Machine

variable {i : Instr} {rd : Reg} {s t : State}

theorem drawDouble_unseeded {ok : Bool} {value : Word64 → F64} (hs : s.seeded = false) :
    drawDouble i rd ok value s = .next (s.raise .unseeded i) :=
  drawCommand_unseeded hs

/-- The seed is checked before the operands, and after R92 alone (R307). -/
theorem exec_unseeded (hi : needsSeed i = true) (hwf : i.wellFormed = true) (hs : s.seeded = false) :
    exec i s = .next (s.raise .unseeded i) := by
  cases i with
  | save | nbytes ra | nbytesz ra => simp only [exec_save, exec_nbytes, exec_nbytesz, check_of_false hs]
  | nu64 rd | nu32 rd | ni64 rd | ni32 rd | witness rd =>
    simp only [exec_nu64, exec_nu32, exec_ni64, exec_ni32, exec_witness, drawCommand_unseeded hs]
  | nu64r rd _ _ | nu32r rd _ _ | ni64r rd _ _ | ni32r rd _ _ | nu64m rd _ | nu32m rd _ | ni64m rd _ | ni32m rd _ =>
    exact drawBounded_unseeded hs
  | nd rd | ndm rd _ | ndr rd _ _ | ntd rd | ntdm rd _ | ntdr rd _ _ =>
    simp only [exec_nd, exec_ndm, exec_ndr, exec_ntd, exec_ntdm, exec_ntdr, drawDouble_unseeded hs]
  | nh rd | nhm rd _ | nhr rd _ _ | nth rd | nthm rd _ | nthr rd _ _ =>
    simp only [exec_nh, exec_nhm, exec_nhr, exec_nth, exec_nthm, exec_nthr, drawFixed_unseeded hwf hs]
  | _ => cases hi

theorem raise_ecode_of_clear (h : s.ecode = 0) (e : Err) (i : Instr) : (s.raise e i).ecode = e.code := by
  rw [State.raise_of_clear h, State.withError_ecode]

/-- The errors that a noise evaluation can end with (R220). -/
theorem evaluate_ecode {built : Bool} {value : State → Option F64} (hclear : s.ecode = 0)
    (h : evaluate i rd built value s = .next t) :
    t.ecode = 0 ∨ t.ecode = Err.code .illegal ∨ t.ecode = Err.code .operand ∨
      built = false ∧ t.ecode = Err.code .notBuilt := by
  rcases evaluate_cases h with ⟨-, rfl⟩ | ⟨hb, rfl⟩ | ⟨-, -, rfl⟩ | ⟨-, v, -, rfl⟩
  · exact .inr (.inl (raise_ecode_of_clear hclear _ _))
  · exact .inr (.inr (.inr ⟨hb, raise_ecode_of_clear hclear _ _⟩))
  · exact .inr (.inr (.inl (raise_ecode_of_clear hclear _ _)))
  · exact .inl hclear

theorem evaluate_never_unseeded {built : Bool} {value : State → Option F64} (hclear : s.ecode = 0)
    (h : evaluate i rd built value s = .next t) : t.ecode ≠ 2 := by
  rcases evaluate_ecode hclear h with h | h | h | ⟨-, h⟩ <;> rw [h] <;> decide

theorem execPfreq_never_unseeded {ra : Reg} (hclear : s.ecode = 0) (h : execPfreq ra s = .next t) : t.ecode ≠ 2 := by
  rcases check_cases h with ⟨-, h⟩ | ⟨-, rfl⟩
  · cases h
    rw [State.perlinBuild_ecode, hclear]
    decide
  · rw [raise_ecode_of_clear hclear]
    decide

/-- The noise commands, from opcode `0x50` on, seed a generator of their own and never need the main one (R307). -/
theorem exec_noise_never_unseeded (hop : 0x50 ≤ i.fields.op.toNat) (hclear : s.ecode = 0) (h : exec i s = .next t) :
    t.ecode ≠ 2 := by
  have hkept (ht : t.ecode = s.ecode) : t.ecode ≠ 2 := by rw [ht, hclear]; decide
  cases i with
  | pfreq ra => exact execPfreq_never_unseeded hclear h
  | pseed _ | poct _ | poff _ _ | pscl _ _ | pbuild | sseed _ | sfreq _ | soct _ | soff _ _ | sscl _ _ | sbuild =>
    cases h
    exact hkept rfl
  | pn1 _ _ | pn2 _ _ | pn3 _ _ | pn4 _ _ | sn2 _ _ | sn3 _ _ | sn4 _ _ | smip _ _ =>
    exact evaluate_never_unseeded hclear h
  | _ => exact absurd hop (of_decide_eq_false rfl)

/-- Settles O17: each command's first check after R92 is that of the seed, and `ISPRIME` reaches its own where steps 1 to 3 of
R205 do not decide. -/
theorem unseededCommandsRaise : Obligations.UnseededCommandsRaise := by
  unfold Obligations.UnseededCommandsRaise
  refine ⟨fun i s => exec_unseeded, fun rd ra rounds s hs hrounds hlarge hfactor => ?isprime,
    fun i s t => exec_noise_never_unseeded⟩
  case isprime =>
    have hno : ¬∃ p : Nat, p.Prime ∧ p ≤ 65535 ∧ (p : Int) ∣ s.regS ra := fun ⟨p, hp, hle, hdvd⟩ => hfactor p hp hle hdvd
    exact exec_isprime_unseeded (decideWithoutWitness_of_no_factor hlarge hno) hrounds hs

end Sys2Proof.Machine
end

section
/-! CLAIM. Evaluations before and after the first build of their generator (60_exceptions.md R310). -/

namespace Sys2Proof.Machine

variable {i : Instr} {rd ra : Reg} {s t : State}

theorem issue_guards_kept {v : Word64} (h : issue v s = .next t) :
    (s.pbuilt = true → t.pbuilt = true) ∧ (s.sbuilt = true → t.sbuilt = true) := by
  rcases issue_cases h with ⟨-, -, rfl⟩ | ⟨-, -, rfl⟩ | ⟨-, i, -, hexec⟩ | ⟨-, d, -, rfl⟩
  · exact ⟨id, id⟩
  · exact ⟨id, id⟩
  · obtain ⟨-, hguards⟩ := (exec_effect hexec).guards_kept
    exact hguards
  · exact ⟨id, id⟩

theorem hostAccess_guards_kept {a : HostAccess} (hreset : a ≠ .reset) (h : hostAccess a s = .next t) :
    (s.pbuilt = true → t.pbuilt = true) ∧ (s.sbuilt = true → t.sbuilt = true) := by
  cases a with
  | reset => exact absurd rfl hreset
  | read o size =>
    rcases hostAccess_read_cases h with ⟨v, rfl⟩ | rfl
    · exact ⟨id, id⟩
    · rw [State.latch_pbuilt, State.latch_sbuilt]
      exact ⟨id, id⟩
  | write o size v =>
    rcases hostAccess_write_cases h with ⟨-, -, hissue⟩ | ⟨k, rfl⟩ | ⟨addr, rfl⟩ | rfl
    · exact issue_guards_kept hissue
    · exact ⟨id, id⟩
    · exact ⟨id, id⟩
    · exact ⟨(s.latch_pbuilt ..).trans, (s.latch_sbuilt ..).trans⟩

theorem exec_perlin_evaluation (hi : i ∈ [Instr.pn1 rd ra, .pn2 rd ra, .pn3 rd ra, .pn4 rd ra]) (s : State) :
    ∃ value, exec i s = evaluate i rd s.pbuilt value s := by
  simp only [List.mem_cons, List.not_mem_nil, or_false] at hi
  rcases hi with rfl | rfl | rfl | rfl <;> exact ⟨_, rfl⟩

theorem exec_simplex_evaluation (hi : i ∈ [Instr.sn2 rd ra, .sn3 rd ra, .sn4 rd ra, .smip rd ra]) (s : State) :
    ∃ value, exec i s = evaluate i rd s.sbuilt value s := by
  simp only [List.mem_cons, List.not_mem_nil, or_false] at hi
  rcases hi with rfl | rfl | rfl | rfl <;> exact ⟨_, rfl⟩

section
variable {built : Bool} {value : State → Option F64}

theorem evaluate_built_never_notBuilt (hexec : exec i s = evaluate i rd built value s) (hb : built = true)
    (hclear : s.ecode = 0) (h : exec i s = .next t) : t.ecode ≠ 5 := by
  rw [hexec] at h
  rcases evaluate_ecode hclear h with h | h | h | ⟨hunbuilt, -⟩
  · rw [h]; decide
  · rw [h]; decide
  · rw [h]; decide
  · rw [hb] at hunbuilt; contradiction

theorem evaluate_unbuilt (hw : i.wellFormed = true) (hb : built = false) :
    evaluate i rd built value s = .next (s.raise .notBuilt i) := by
  rw [evaluate, checkLegal, check_of_true hw, check_of_false hb]

end

/-- Settles O18: every evaluation checks the flag of its generator before its operands, and no access but reset clears a flag. -/
theorem unbuiltCommandsRaise : Obligations.UnbuiltCommandsRaise := by
  unfold Obligations.UnbuiltCommandsRaise
  refine ⟨fun s t a => hostAccess_guards_kept, fun rd ra s =>
    ⟨fun i hi hb hclear t h => ?perlinBuilt, fun i hi hb hclear t h => ?simplexBuilt,
      fun i hi hwf hb => ?perlinUnbuilt, fun i hi hwf hb => ?simplexUnbuilt⟩⟩
  case perlinBuilt =>
    obtain ⟨value, hexec⟩ := exec_perlin_evaluation hi s
    exact evaluate_built_never_notBuilt hexec hb hclear h
  case simplexBuilt =>
    obtain ⟨value, hexec⟩ := exec_simplex_evaluation hi s
    exact evaluate_built_never_notBuilt hexec hb hclear h
  case perlinUnbuilt =>
    obtain ⟨value, hexec⟩ := exec_perlin_evaluation hi s
    rw [hexec, evaluate_unbuilt hwf hb]
  case simplexUnbuilt =>
    obtain ⟨value, hexec⟩ := exec_simplex_evaluation hi s
    rw [hexec, evaluate_unbuilt hwf hb]

end Sys2Proof.Machine
end

section
/-! CLAIM. `CLRERR` and `NOP` (60_exceptions.md R316, R317). -/

namespace Sys2Proof.Machine

variable {hi : BitVec 32}

theorem append_clrerr_ne_clrerrValue (h : hi ≠ 0) : (hi ++ 0x01000000#32 : Word64) ≠ clrerrValue := by
  have hvalue : clrerrValue = (0 : BitVec 32) ++ 0x01000000#32 := rfl
  rwa [hvalue, ne_eq, BitVec.append_left_inj]

/-- Settles O16: both commands by their meaning, and a value with a non-zero upper half by step 1 of the decoder. -/
theorem clrerrAndNop : Obligations.ClrerrAndNop := by
  unfold Obligations.ClrerrAndNop
  refine ⟨rfl, rfl, rfl, rfl, fun s => ⟨rfl, rfl⟩, fun s hlatched => ⟨?runs, fun v hv => ?dropped⟩,
    fun s hi hupper => ⟨fun hlatched => ?latched, fun hclear => ?illegal⟩⟩
  case runs => exact (hostAccess_cmd ..).trans (issue_clrerr_of_latched hlatched)
  case dropped => rw [hostAccess_cmd, issue_of_latched hlatched hv]
  case latched => rw [hostAccess_cmd, issue_of_latched hlatched (append_clrerr_ne_clrerrValue hupper)]
  case illegal =>
    have hdecode : decodeCommand (hi ++ 0x01000000#32) = .error .upperHalf :=
      decodeCommand_of_upper (by rwa [BitVec.extractLsb'_append_eq_left])
    rw [hostAccess_cmd, issue_of_error hclear hdecode, ← setWidth_setWidth_eq_ofNat, BitVec.setWidth_append_eq_right]
    rfl

end Sys2Proof.Machine
end

section
/-! CLAIM. The frame of the buffer (70_reset_and_hazards.md R348): what a command leaves of `BUF` as it was. -/

namespace Sys2Proof.Machine

variable {i : Instr} {s t : State} {a : Nat}

/-- Bytes stored from byte 0 on leave every byte past them as it was. -/
theorem State.bufRead_storeBytes_zero_of_le {bs : List Byte} (h : bs.length ≤ a) : (s.storeBytes 0 bs).bufRead a = s.bufRead a :=
  (s.bufRead_storeBytes 0 bs a).trans (dif_neg (by omega))

theorem CommandEffect.bufRead_eq (h : CommandEffect i s t) (ha : storedBytes i s ≤ a) : t.bufRead a = s.bufRead a := by
  cases h with
  | raised e => simp only [State.bufRead, State.raise_buf, State.raise_epoch]
  | stored bs hlen => exact State.bufRead_storeBytes_zero_of_le (hlen.trans_le ha)
  | filled n bs _ hlen => exact State.bufRead_storeBytes_zero_of_le (hlen.trans_le ha)
  | _ => rfl

/-- Settles O58: by the effects of a command: those that store bytes do so from byte 0 on, as many as `storedBytes` says. -/
theorem onlyStoredBytesChange : Obligations.OnlyStoredBytesChange := by
  unfold Obligations.OnlyStoredBytesChange
  intro i s t h a ha
  exact (exec_effect h).bufRead_eq ha

end Sys2Proof.Machine
end

section
/-! CLAIM. The machine has no stop (70_reset_and_hazards.md R353, 60_exceptions.md R300): every command, every host access and
every step answers a next state. -/

namespace Sys2Proof.Machine

variable {i : Instr} {rd : Reg}

theorem drawFixed_answers_next (ok : Bool) (value : Word64 → Int) (s : State) : ∃ t, drawFixed i rd ok value s = .next t := by
  simp only [drawFixed, checkLegal]
  exact check_answers_next (drawCommand_answers_next ok _)

theorem execIsprime_answers_next (rd ra : Reg) (rounds : BitVec 12) (s : State) : ∃ t, execIsprime rd ra rounds s = .next t := by
  simp only [execIsprime]
  split
  · exact ⟨_, rfl⟩
  · exact check_answers_next ⟨_, rfl⟩

/-- The checks are all that can end a command early, and a check that fails answers the state with the error raised (R303). -/
theorem exec_answers_next (i : Instr) (s : State) : ∃ t, exec i s = .next t := by
  cases i with
  | nop | clrerr | seed ra | pseed ra | poct ra | poff ra axis | pscl ra axis | pbuild
  | sseed ra | sfreq ra | soct ra | soff ra axis | sscl ra axis | sbuild => exact ⟨_, rfl⟩
  | seeda ra | save | restore | pfreq ra =>
    simp only [exec, execSeeda, execSave, execRestore, execPfreq]
    exact check_answers_next ⟨_, rfl⟩
  | nbytes ra | nbytesz ra =>
    simp only [exec, execNbytes, execNbytesz]
    exact check_answers_next (check_answers_next ⟨_, rfl⟩)
  | nu64 rd | nu32 rd | ni64 rd | ni32 rd | witness rd =>
    simp only [exec, execNu64, execNu32, execNi64, execNi32, execWitness]
    exact drawCommand_answers_next _ _
  | nu64r rd _ _ | nu32r rd _ _ | ni64r rd _ _ | ni32r rd _ _ | nu64m rd _ | nu32m rd _ | ni64m rd _ | ni32m rd _ =>
    simp only [exec, execNu64r, execNu32r, execNi64r, execNi32r, execNu64m, execNu32m, execNi64m, execNi32m, drawBounded]
    exact drawCommand_answers_next _ _
  | nd rd | ndm rd _ | ndr rd _ _ | ntd rd | ntdm rd _ | ntdr rd _ _ =>
    simp only [exec, execNd, execNdm, execNdr, execNtd, execNtdm, execNtdr, drawDouble]
    exact drawCommand_answers_next _ _
  | nh rd | nhm rd _ | nhr rd _ _ | nth rd | nthm rd _ | nthr rd _ _ =>
    simp only [exec, execNh, execNhm, execNhr, execNth, execNthm, execNthr]
    exact drawFixed_answers_next _ _ _
  | isprime rd ra rounds => exact execIsprime_answers_next rd ra rounds s
  | pn1 rd _ | pn2 rd _ | pn3 rd _ | pn4 rd _ | sn2 rd _ | sn3 rd _ | sn4 rd _ | smip rd _ =>
    simp only [exec, execPn1, execPn2, execPn3, execPn4, execSn2, execSn3, execSn4, execSmip]
    exact evaluate_answers_next _ _

/-- A value written to `CMD` runs a command, is dropped, or latches `ERR_ILLEGAL` (R304, R305). -/
theorem issue_answers_next (v : Word64) (s : State) : ∃ t, issue v s = .next t := by
  unfold issue
  split
  · split
    · exact exec_answers_next .clrerr s
    · exact ⟨s, rfl⟩
  · split
    · exact exec_answers_next _ s
    · exact ⟨_, rfl⟩

theorem State.hostWrite_answers_next {s : State} {o size : Nat} {v : Word64} {result : Result}
    (h : s.hostWrite o size v = some result) : ∃ t, result = .next t := by
  unfold State.hostWrite at h
  split_ifs at h with hreg hcmd hoperand hwindow
  · obtain rfl := Option.some.inj h
    exact issue_answers_next v s
  · exact ⟨_, (Option.some.inj h).symm⟩
  · exact ⟨_, (Option.some.inj h).symm⟩

/-- An access that is refused answers a next state too, with `ERR_BUS` latched (R68). -/
theorem hostAccess_answers_next (a : HostAccess) (s : State) : ∃ t, hostAccess a s = .next t := by
  cases a with
  | read o size =>
    cases hread : s.hostRead o.toNat size with
    | some v => exact ⟨_, hostAccess_read_of_some hread⟩
    | none => exact ⟨_, hostAccess_read_of_none hread⟩
  | write o size v =>
    cases hwrite : s.hostWrite o.toNat size v with
    | some result =>
      rw [hostAccess_write_of_some hwrite]
      exact State.hostWrite_answers_next hwrite
    | none => exact ⟨_, hostAccess_write_of_none hwrite⟩
  | reset => exact ⟨_, rfl⟩

theorem step_answers_next (s : State) : ∃ t, step s = .next t := by
  rcases step_cases s with ⟨-, hwaits⟩ | ⟨a, -, -, htakes⟩
  · exact ⟨s, hwaits⟩
  · rw [htakes]
    exact hostAccess_answers_next a s.takeAccess

/-- Settles O19: a step waits or takes a host access, and an access ends in a next state because every command does. -/
theorem everyStepAnswersNext : Obligations.EveryStepAnswersNext := by
  unfold Obligations.EveryStepAnswersNext
  exact ⟨exec_answers_next, step_answers_next⟩

end Sys2Proof.Machine
end
